-- ==== Sys2Proof/Word.lean ====
section
/-! DEFINITION. The word types of the XBN: bytes of the memories and the 32-bit registers and command words. -/

namespace Sys2Proof

/-- A byte of SRC or of a page buffer, bits 7 down to 0 (00_scope R11). -/
abbrev Byte := BitVec 8

/-- A 32-bit register value, command word or DIFFMEM entry, bits 31 down to 0 (00_scope R7, R11). -/
abbrev Word := BitVec 32

end Sys2Proof
end

