-- ==== Sys2Proof/Syntax.lean ====
section
/-! DEFINITION. The commands of the XBN, one constructor for each row of spec/opcode_table.json. -/

namespace Sys2Proof

/-- A page-buffer bank number (30_encoding R82: fields A and B are single bits, taken as bank numbers 0 or 1). -/
inductive Bank where
  | bank0
  | bank1
deriving DecidableEq, Repr

/-- The commands (30_encoding R83). Every value of this type is a well-formed command: a bank number is one of two names.
The words that are no command (ILLEGAL, R87) have no constructor; the decoder rejects them by name. -/
inductive Instr where
  /-- NOP (40_command R106). -/
  | nop
  /-- CONVERT a: the destination bank a (41_convert R115). -/
  | convert (a : Bank)
  /-- DIFF a, b: a holds `prev`, b holds `next` (42_diff R140). -/
  | diff (a b : Bank)
deriving DecidableEq, Repr

end Sys2Proof
end

