-- ==== Sys2Proof/WellFormed.lean ====
section
/-! DEFINITION. Which 32-bit words are well-formed commands, one check for each bullet of 30_encoding R87, read off the field
table R81 independently of the decoder. A value of `Instr` needs no check of its own: its banks are names. -/

namespace Sys2Proof

/-- RSV1, bits [31:10], is 0 (R81; R87, first bullet). -/
def Word.rsv1Clear (w : Word) : Bool := w.extractLsb' 10 22 == 0

/-- RSV0, bits [7:4], is 0 (R81; R87, second bullet). -/
def Word.rsv0Clear (w : Word) : Bool := w.extractLsb' 4 4 == 0

/-- OP, bits [3:0], is not in `0x3` to `0xF` (R87, third bullet). -/
def Word.opDefined (w : Word) : Bool := decide (w.extractLsb' 0 4 < 3)

/-- A NOP word has A and B clear (R87, fourth bullet). -/
def Word.nopFieldsClear (w : Word) : Bool := w.extractLsb' 0 4 != 0 || (!w.getLsbD 8 && !w.getLsbD 9)

/-- A CONVERT word has B clear (R87, fifth bullet). -/
def Word.convertFieldClear (w : Word) : Bool := w.extractLsb' 0 4 != 1 || !w.getLsbD 9

/-- The word is a command: no bullet of R87 makes it illegal. -/
def Word.wellFormed (w : Word) : Bool :=
  w.rsv1Clear && w.rsv0Clear && w.opDefined && w.nopFieldsClear && w.convertFieldClear

end Sys2Proof
end

