-- ==== Sys2Proof/Decode.lean ====
section
/-! DEFINITION. The decoder of command words (30_encoding R80 to R88), total and rejecting by name, and after it the encoder. -/

namespace Sys2Proof

/-- Why a word is illegal (30_encoding R87). Every one of them completes with IllegalCommand (40_command R107). -/
inductive Illegal where
  /-- RSV1, bits [31:10], is not 0. -/
  | rsv1
  /-- RSV0, bits [7:4], is not 0. -/
  | rsv0
  /-- OP in `0x3` to `0xF`. -/
  | reservedOpcode
  /-- OP = `0x0` with A or B set. -/
  | nopWithBank
  /-- OP = `0x1` with B set. -/
  | convertWithB
  /-- Not one whole word of four byte lanes (R80: a decoder always takes the whole 32-bit word). The engine never meets it. -/
  | notOneWord
deriving DecidableEq, Repr

/-- RSV1 of a command word, bits [31:10] (R81). -/
def Word.rsv1 (w : Word) : BitVec 22 := w.extractLsb' 10 22

/-- RSV0 of a command word, bits [7:4] (R81). -/
def Word.rsv0 (w : Word) : BitVec 4 := w.extractLsb' 4 4

/-- OP of a command word, bits [3:0] (R81). -/
def Word.op (w : Word) : BitVec 4 := w.extractLsb' 0 4

/-- Field A of a command word, bit [8] (R81). -/
def Word.fieldA (w : Word) : Bool := w.getLsbD 8

/-- Field B of a command word, bit [9] (R81). -/
def Word.fieldB (w : Word) : Bool := w.getLsbD 9

/-- The bank number a field's bit stands for, with no extension, scaling or offset (R82). -/
def bankOfBit : Bool → Bank
  | false => .bank0
  | true => .bank1

/-- The field's bit for a bank number (R82). -/
def bitOfBank : Bank → Bool
  | .bank0 => false
  | .bank1 => true

/-- The decode function of R88, total on all 2^32 words; ILLEGAL is an `error` that names the reason. -/
def decode (w : Word) : Except Illegal Instr :=
  if w.rsv1 ≠ 0 then .error .rsv1
  else if w.rsv0 ≠ 0 then .error .rsv0
  else if w.op = 0 then
    if w.fieldA || w.fieldB then .error .nopWithBank else .ok .nop
  else if w.op = 1 then
    if w.fieldB then .error .convertWithB else .ok (.convert (bankOfBit w.fieldA))
  else if w.op = 2 then .ok (.diff (bankOfBit w.fieldA) (bankOfBit w.fieldB))
  else .error .reservedOpcode

/-- The word whose byte lane j carries bits [8j+7:8j]: little-endian lane order (20_memory R64). -/
def Word.ofLanes (l0 l1 l2 l3 : Byte) : Word := l3 ++ l2 ++ l1 ++ l0

/-- Byte lane j of a word, bits [8j+7:8j] (20_memory R64). -/
def Word.lane (w : Word) (j : Nat) : Byte := w.extractLsb' (8 * j) 8

/-- Decoding the bytes of a command as the bus carries them, lane 0 first; only one whole word is a command (R80). -/
def decodeBytes : List Byte → Except Illegal Instr
  | [l0, l1, l2, l3] => decode (Word.ofLanes l0 l1 l2 l3)
  | _ => .error .notOneWord

/-- The word of a command (R84 to R86, R91). -/
def encode : Instr → Word
  | .nop => 0x00000000
  | .convert a => 0x00000001 ||| (BitVec.ofBool (bitOfBank a)).setWidth 32 <<< 8
  | .diff a b =>
    0x00000002 ||| (BitVec.ofBool (bitOfBank a)).setWidth 32 <<< 8 ||| (BitVec.ofBool (bitOfBank b)).setWidth 32 <<< 9

/-- The command word with bits `w` as spec/opcode_table.json numbers them: the low `nbits` bits of w, every bit above them 0. -/
def tableWord (nbits w : Nat) : Word := BitVec.ofNat 32 (w % 2 ^ nbits)

/-- The command this decoder reads from the word with bits `w`, laid out lane by lane as the bus carries it (20_memory R64). -/
def decodeTableWord (nbits w : Nat) : Option Instr :=
  match decodeBytes [(tableWord nbits w).lane 0, (tableWord nbits w).lane 1, (tableWord nbits w).lane 2, (tableWord nbits w).lane 3] with
  | .ok i => some i
  | .error _ => none

end Sys2Proof
end

