-- ==== Sys2Proof/Config.lean ====
section
/-! DEFINITION. What one build of the XBN fixes (the named parameters of 00_scope R8) and the free values ("draws") of the spec. -/

namespace Sys2Proof

/-- The named parameters of 00_scope R8 that a build fixes. A capacity is held as its HIGHEST INDEX, so that every value of
the type is a legal capacity, 1 to 65536; BASE is held as a number of 2^19-byte blocks, so that it is always aligned.
LATENCY is no field: the schedule of events in the machine's state stands for it (notes/assumptions/3.md). -/
structure Params where
  /-- `BASE / 2^19`. -/
  baseBlock : Nat
  /-- `SRC_CAP - 1`. -/
  srcTop : Fin 65536
  /-- `PBUF_CAP - 1`. -/
  pbufTop : Fin 65536
deriving DecidableEq, Repr

/-- `BASE`: the platform address of register offset 0, aligned to 2^19 bytes (00_scope R8). -/
def Params.base (p : Params) : Nat := p.baseBlock * 2 ^ 19

/-- `SRC_CAP`: the byte capacity of SRC (00_scope R8). -/
def Params.srcCap (p : Params) : Nat := p.srcTop.val + 1

/-- `PBUF_CAP`: the byte capacity of each bank, and the entry capacity of DIFFMEM (00_scope R8). -/
def Params.pbufCap (p : Params) : Nat := p.pbufTop.val + 1

/-- The reference configuration of 00_scope R8 (SRC_CAP = PBUF_CAP = 1024); BASE = 0 is the model's choice
(DESIGN CHOICE, notes/assumptions/2.md, unsafe). -/
def Params.reference : Params := { baseBlock := 0, srcTop := 1023, pbufTop := 1023 }

/-- The free 8-bit value a host read takes where the spec says it returns "a draw" (20_memory R68, R69; 70_reset R200).
It has no body: no proof knows a value of it (DESIGN CHOICE, notes/assumptions/5.md, safe). -/
opaque Config.drawByte : Nat → Byte

/-- The free 32-bit value a host read of DIFFMEM takes where the spec says it returns "a draw" (20_memory R70; 70_reset R200).
It has no body (DESIGN CHOICE, notes/assumptions/5.md, safe). -/
opaque Config.drawWord : Nat → Word

end Sys2Proof
end

