-- ==== Sys2Proof/Machine/State.lean ====
section
/-! DEFINITION. The state of the XBN as plain data (10_state R52), the events and answers at its ports, and the reasons a step can stop. -/

namespace Sys2Proof.Machine

/-- A memory: (index, value) pairs with indices strictly rising. An index that is not listed is UNWRITTEN (10_state R50):
it reads as no value at all, so no listed value is ever redundant. `Memory 8` is a list of `Host.Cell`. -/
abbrev Memory (w : Nat) := List (Nat × BitVec w)

/-- STATUS (10_state R32); its reserved bits are no state, they read 0 (R27). -/
structure Status where
  /-- A command is accepted and not yet complete (R33). -/
  busy : Bool
  /-- The last accepted command has completed (R34). -/
  done : Bool
  /-- The last completed command failed (R35). -/
  errv : Bool
  /-- Sticky: a busy-access hazard has happened (R36). -/
  haz : Bool
  /-- The error code of the failed command (R37). -/
  err : BitVec 4
deriving DecidableEq, Repr

/-- The error kinds a command can report (60_exceptions R161). -/
inductive CmdError where
  | invalidDimensions
  | dimensionMismatch
  | allocationFailure
  | illegalCommand
deriving DecidableEq, Repr

/-- A DiffEntry: "address: unsigned 16-bit", "value: unsigned 8-bit" (00_scope R6, R14). -/
structure DiffEntry where
  addr : BitVec 16
  value : BitVec 8
deriving DecidableEq, Repr

/-- One write in the list that a command's check and computation hand to the commit (40_command R103, `Ok(writes)`).
The kinds are all a command may write besides STATUS (R110). -/
inductive EngineWrite where
  /-- `MemWrite(PBUF[b], i, 1, v)`. -/
  | pbuf (b : Bank) (i : Nat) (v : Byte)
  /-- `LEN[b] <- n`. -/
  | len (b : Bank) (n : BitVec 17)
  /-- `MemWriteW(DIFFMEM, i, w)`. -/
  | diffmem (i : Nat) (w : Word)
  /-- `DCOUNT <- k`. -/
  | dcount (k : BitVec 17)
deriving DecidableEq, Repr

/-- Direction, size and data of a host transaction (20_memory R60). -/
inductive Access where
  | read8
  | read32
  | write8 (d : Byte)
  | write32 (d : Word)
deriving DecidableEq, Repr

/-- The events of the model (10_state R23, 70_reset R190): each is one atomic event, and a state lists those to come. -/
inductive Event where
  /-- A host transaction at a platform address (20_memory R60). -/
  | access (addr : Nat) (a : Access)
  /-- The engine moves now, if a command is pending (40_command R103). -/
  | engineTurn
  /-- `rst_n` goes low (70_reset R190). -/
  | resetAssert
  /-- Reset is released (70_reset R190). -/
  | resetRelease
deriving DecidableEq, Repr

/-- What the host gets for a transaction (20_memory R60). -/
inductive Response where
  /-- Read data of 8 bits. -/
  | data8 (v : Byte)
  /-- Read data of 32 bits. -/
  | data32 (v : Word)
  /-- A write's acknowledgement. -/
  | ack
  /-- A bus error (R62, R63). -/
  | busError
  /-- No answer of the XBN: it is in reset (70_reset R190), or the address is not its own (R78). -/
  | noAnswer
deriving DecidableEq, Repr

/-- The state of the XBN. The first fields to `diffmem` are the record of 10_state R52, in its order; `rstN` is the input pin
of R22; `params`, `draws`, `inbox` and `outbox` are the model's own (notes/assumptions/1.md, 3.md, 4.md, 5.md). -/
structure State where
  status : Status
  /-- WIDTH[15:0] (R38). -/
  width : BitVec 16
  /-- HEIGHT[15:0] (R39). -/
  height : BitVec 16
  /-- LEN0[16:0] (R40). -/
  len0 : BitVec 17
  /-- LEN1[16:0] (R40). -/
  len1 : BitVec 17
  /-- DCOUNT[16:0] (R41). -/
  dcount : BitVec 17
  /-- IRQEN[2:0]: HAZIE, ERRIE, DONEIE (R42). -/
  irqen : BitVec 3
  /-- The accepted command word, while it is not yet complete (R49). -/
  pending : Option Word
  /-- SRC (R44). -/
  src : Memory 8
  /-- PBUF[0] (R45). -/
  pbuf0 : Memory 8
  /-- PBUF[1] (R45). -/
  pbuf1 : Memory 8
  /-- DIFFMEM (R46). -/
  diffmem : Memory 32
  /-- The level of `rst_n`: true when the XBN is out of reset (R22, R190). -/
  rstN : Bool
  /-- The parameters of this build; nothing writes them. -/
  params : Params
  /-- How many draws have been taken; the next one is the free value of this number. -/
  draws : Nat
  /-- The events to come, first first; when it is empty the engine moves. -/
  inbox : List Event
  /-- The answers given on the host port, first first. -/
  outbox : List Response
deriving DecidableEq, Repr

/-- Why the machine stops. -/
inductive Fault where
  /-- `UninitRead` (70_reset R197). Raised by CONVERT when stage 1 would read an unwritten SRC byte (41_convert R135) and by
  DIFF when its scan would read an unwritten bank byte (42_diff R159). SAFE: the chip goes on with unspecified data, the
  model stops, so no false claim about the chip can be proved (notes/assumptions/6.md). -/
  | uninitRead
deriving DecidableEq, Repr

/-- Why an instruction has no meaning. -/
inductive Refusal where
  /-- Raised by no arm of `exec`: every command has its meaning. It would be raised for a command not modelled yet. SAFE. -/
  | notModelled (mnemonic : String)
deriving DecidableEq, Repr

/-- STATUS after reset: every field 0 (R32, R51). -/
def Status.reset : Status := { busy := false, done := false, errv := false, haz := false, err := 0 }

/-- The machine right after reset (R51, 70_reset R191): every register 0, no command, every memory unwritten, reset released.
The model's own fields have the values of notes/assumptions/2.md, 3.md, 4.md and 5.md (DESIGN CHOICE). -/
def State.reset : State :=
  { status := Status.reset, width := 0, height := 0, len0 := 0, len1 := 0, dcount := 0, irqen := 0, pending := none,
    src := [], pbuf0 := [], pbuf1 := [], diffmem := [], rstN := true,
    params := Params.reference, draws := 0, inbox := [], outbox := [] }

end Sys2Proof.Machine
end

