-- ==== Sys2Proof/Machine/Ops.lean ====
section
/-! DEFINITION. The named operations over the memories, the banks and the command lifecycle; recording an error (the XBN's only
form of an exception, 60_exceptions R160) is one shared operation here. -/

namespace Sys2Proof.Machine

/-! ### Memories -/

/-- The value at index i, or `none` if it is unwritten (10_state R50). -/
def Memory.read {w : Nat} : Memory w → Nat → Option (BitVec w)
  | [], _ => none
  | (j, v) :: m, i => if i = j then some v else Memory.read m i

/-- Writing value v at index i: the index is then written (10_state R50). -/
def Memory.write {w : Nat} : Memory w → Nat → BitVec w → Memory w
  | [], i, v => [(i, v)]
  | (j, u) :: m, i, v =>
    if i < j then (i, v) :: (j, u) :: m
    else if i = j then (i, v) :: m
    else (j, u) :: Memory.write m i v

/-- Every listed index is above `lo`, and they rise strictly. -/
def Memory.risesAbove {w : Nat} : Nat → Memory w → Bool
  | _, [] => true
  | lo, (j, _) :: m => decide (lo < j) && Memory.risesAbove j m

/-- The canonical form: indices strictly rising. No listed value can be redundant, since an unlisted index has none. -/
def Memory.wf {w : Nat} : Memory w → Bool
  | [] => true
  | (j, _) :: m => Memory.risesAbove j m

/-- Every listed index is below the capacity. -/
def Memory.within {w : Nat} (cap : Nat) (m : Memory w) : Bool := m.all fun c => decide (c.1 < cap)

/-- The memory that holds the bytes of a list at indices 0, 1, 2, … (from `i` on). -/
def Memory.ofListFrom {w : Nat} (i : Nat) : List (BitVec w) → Memory w
  | [] => []
  | v :: vs => (i, v) :: Memory.ofListFrom (i + 1) vs

/-- An engine read: `MemRead` of 00_scope R12, with the fault `UninitRead` if the byte is unwritten (70_reset R197). -/
def engineRead {w : Nat} (m : Memory w) (i : Nat) : Except Fault (BitVec w) :=
  match Memory.read m i with
  | some v => .ok v
  | none => .error .uninitRead

/-- `for i in [0, n) run f`, in ascending order, stopping at the first fault (00_scope R12). -/
def loop {σ : Type} (f : σ → Nat → Except Fault σ) (s : σ) : Nat → Except Fault σ
  | 0 => .ok s
  | n + 1 =>
    match loop f s n with
    | .ok s' => f s' n
    | .error e => .error e

/-! ### Banks -/

/-- `PBUF[b]` (10_state R45). -/
def State.pbuf (s : State) : Bank → Memory 8
  | .bank0 => s.pbuf0
  | .bank1 => s.pbuf1

/-- `LEN[b]` (10_state R40). -/
def State.len (s : State) : Bank → BitVec 17
  | .bank0 => s.len0
  | .bank1 => s.len1

/-- The state with bank b's contents replaced. -/
def State.setPbuf (s : State) (b : Bank) (m : Memory 8) : State :=
  match b with
  | .bank0 => { s with pbuf0 := m }
  | .bank1 => { s with pbuf1 := m }

/-- `LEN[b] <- n`. -/
def State.setLen (s : State) (b : Bank) (n : BitVec 17) : State :=
  match b with
  | .bank0 => { s with len0 := n }
  | .bank1 => { s with len1 := n }

/-! ### One field replaced -/

/-- The state with STATUS replaced. -/
def State.setStatus (s : State) (t : Status) : State := { s with status := t }

/-- The state with WIDTH replaced. -/
def State.setWidth (s : State) (v : BitVec 16) : State := { s with width := v }

/-- The state with HEIGHT replaced. -/
def State.setHeight (s : State) (v : BitVec 16) : State := { s with height := v }

/-- The state with IRQEN replaced. -/
def State.setIrqen (s : State) (v : BitVec 3) : State := { s with irqen := v }

/-- The state with SRC's contents replaced. -/
def State.setSrc (s : State) (m : Memory 8) : State := { s with src := m }

/-- The state with DIFFMEM's contents replaced. -/
def State.setDiffmem (s : State) (m : Memory 32) : State := { s with diffmem := m }

/-- The state with DCOUNT replaced. -/
def State.setDcount (s : State) (k : BitVec 17) : State := { s with dcount := k }

/-- The state with the level of `rst_n` replaced. -/
def State.setRstN (s : State) (b : Bool) : State := { s with rstN := b }

/-- The state with the events to come replaced. -/
def State.setInbox (s : State) (es : List Event) : State := { s with inbox := es }

/-- The state with one more answer given on the host port. -/
def State.emit (s : State) (r : Response) : State := { s with outbox := s.outbox ++ [r] }

/-! ### The lifecycle of a command -/

/-- Acceptance of a command word, whatever its bits (40_command R100, R101). -/
def State.accept (s : State) (w : Word) : State :=
  { s with
    pending := some w
    status := { s.status with busy := true, done := false, errv := false, err := 0 } }

/-- A busy-access hazard: `HAZ <- 1` (70_reset R200). -/
def State.setHaz (s : State) : State := s.setStatus { s.status with haz := true }

/-- One write of a command's commit (41_convert R123, 42_diff R146). -/
def applyWrite (s : State) : EngineWrite → State
  | .pbuf b i v => s.setPbuf b (Memory.write (s.pbuf b) i v)
  | .len b n => s.setLen b n
  | .diffmem i w => s.setDiffmem (Memory.write s.diffmem i w)
  | .dcount k => s.setDcount k

/-- `perform every write in writes`, in order (40_command R103). -/
def performWrites (ws : List EngineWrite) (s : State) : State := ws.foldl applyWrite s

/-- The error codes of STATUS.ERR (60_exceptions R161). -/
def errorCode : CmdError → BitVec 4
  | .invalidDimensions => 1
  | .dimensionMismatch => 2
  | .allocationFailure => 3
  | .illegalCommand => 4

/-- `STATUS.ERRV <- 1; STATUS.ERR <- code(e)`: all that an error writes besides the completion (60_exceptions R164). -/
def State.recordError (s : State) (e : CmdError) : State :=
  s.setStatus { s.status with errv := true, err := errorCode e }

/-- `BUSY <- 0; DONE <- 1; PENDING <- none` (40_command R103, R104). -/
def State.complete (s : State) : State :=
  { s with status := { s.status with busy := false, done := true }, pending := none }

/-- What a command computes from the state before its step (40_command R103): a fault of the model, an error, or its writes. -/
abbrev CmdResult := Except Fault (Except CmdError (List EngineWrite))

/-- The second half of the engine step of 40_command R103: all of the writes, or the error and nothing else, then completion. -/
def finish (r : CmdResult) (s : State) : Host.Outcome State Fault Refusal :=
  match r with
  | .ok (.ok ws) => .next (performWrites ws s).complete
  | .ok (.error e) => .next (s.recordError e).complete
  | .error f => .fault f

/-- Reset of every piece of the spec's state (10_state R51, 70_reset R191, R192), with `rst_n` low; the parameters, the events
to come, the answers given and the count of draws are not the chip's state and stay. -/
def State.enterReset (s : State) : State :=
  { State.reset with
    rstN := false, params := s.params, draws := s.draws, inbox := s.inbox, outbox := s.outbox }

/-! ### Free values of host reads -/

/-- The 8-bit draw of a host read, and the state that has taken it. -/
def State.takeByte (s : State) : Byte × State := (Config.drawByte s.draws, { s with draws := s.draws + 1 })

/-- The 32-bit draw of a host read, and the state that has taken it. -/
def State.takeWord (s : State) : Word × State := (Config.drawWord s.draws, { s with draws := s.draws + 1 })

end Sys2Proof.Machine
end

