-- ==== Sys2Proof/Machine/Operands.lean ====
section
/-! DEFINITION. Operand forms: the derived sizes of CONVERT (41_convert R116), the pixels of the two layouts (20_memory R65, R66),
the entry word (R67), and the decoding of host offsets into windows and registers (R61, 10_state R24, R25). -/

namespace Sys2Proof.Machine

/-! ### Sizes -/

/-- `ceil8(n) = (n + 7) / 8` (00_scope R10). -/
def ceil8 (n : Nat) : Nat := (n + 7) / 8

/-- `stride = ceil8(W)`: bytes in one source row (41_convert R116). -/
def stride (W : Nat) : Nat := ceil8 W

/-- `pages = ceil8(H)` (41_convert R116). -/
def pages (H : Nat) : Nat := ceil8 H

/-- `n = W * pages`: bytes of the page-major buffer (41_convert R116). -/
def outBytes (W H : Nat) : Nat := W * pages H

/-- `srcbytes = stride * H`: bytes of the source bitmap (41_convert R116). -/
def srcBytes (W H : Nat) : Nat := stride W * H

/-! ### Bits -/

/-- `bit(v, i) = (v >> i) & 1`, as a byte that is 0 or 1 (00_scope R11). -/
def bitOf (v : Byte) (i : Nat) : Byte := (v >>> i) &&& 1

/-- The SRC index of the byte that holds pixel (x, y) of a W-wide bitmap (20_memory R65). -/
def srcIndex (W x y : Nat) : Nat := stride W * y + x / 8

/-- The page-buffer address of the byte that holds pixel (x, y) of a W-wide buffer (20_memory R66). -/
def pbufIndex (W x y : Nat) : Nat := (y / 8) * W + x

/-- The entry word `zext_32(v << 16 | addr)` (20_memory R67). -/
def entryWord (e : DiffEntry) : Word := e.value.setWidth 32 <<< 16 ||| e.addr.setWidth 32

/-- The DiffEntry an entry word holds: `addr = w[15:0]`, `v = w[23:16]` (20_memory R67). -/
def entryOf (w : Word) : DiffEntry := { addr := w.extractLsb' 0 16, value := w.extractLsb' 16 8 }

/-! ### Host offsets -/

/-- The windows of the address map (10_state R24). -/
inductive Window where
  | reg
  | src
  | pbuf (b : Bank)
  | diff
deriving DecidableEq, Repr

/-- The window of an offset, chosen by `a[18:16]` (20_memory R61). -/
def windowOf (a : BitVec 19) : Window :=
  match (a.extractLsb' 16 3).toNat with
  | 0 => .reg
  | 1 => .src
  | 2 => .pbuf .bank0
  | 3 => .pbuf .bank1
  | _ => .diff

/-- The index inside REG, SRC and the banks: `a[15:0]` (20_memory R61). -/
def byteIndex (a : BitVec 19) : Nat := (a.extractLsb' 0 16).toNat

/-- The entry index inside DIFF: `(a - 0x40000) / 4` (20_memory R61). -/
def entryIndex (a : BitVec 19) : Nat := (a.toNat - 0x40000) / 4

/-- `a mod 4 = 0` (20_memory R62). -/
def aligned (a : BitVec 19) : Bool := a.toNat % 4 == 0

/-- The registers of 10_state R25. -/
inductive Reg where
  | id | srccap | pbufcap | cmd | status | width | height | len0 | len1 | dcount | irqen
deriving DecidableEq, Repr

/-- The offset of a register (10_state R25). -/
def regOffset : Reg → Nat
  | .id => 0x000
  | .srccap => 0x004
  | .pbufcap => 0x008
  | .cmd => 0x010
  | .status => 0x014
  | .width => 0x018
  | .height => 0x01C
  | .len0 => 0x020
  | .len1 => 0x024
  | .dcount => 0x028
  | .irqen => 0x02C

/-- The register that holds `LEN[b]` (10_state R25, R40). -/
def lenReg : Bank → Reg
  | .bank0 => .len0
  | .bank1 => .len1

/-- The register at an aligned offset of the REG window, `none` where the offset is reserved (10_state R25, R27). -/
def regAt (off : Nat) : Option Reg :=
  if off = 0x000 then some .id
  else if off = 0x004 then some .srccap
  else if off = 0x008 then some .pbufcap
  else if off = 0x010 then some .cmd
  else if off = 0x014 then some .status
  else if off = 0x018 then some .width
  else if off = 0x01C then some .height
  else if off = 0x020 then some .len0
  else if off = 0x024 then some .len1
  else if off = 0x028 then some .dcount
  else if off = 0x02C then some .irqen
  else none

/-- The offset of a platform address, `none` outside `[BASE, BASE + 0x80000)` (20_memory R60). -/
def offsetOf (p : Params) (addr : Nat) : Option (BitVec 19) :=
  if p.base ≤ addr ∧ addr < p.base + 0x80000 then some (BitVec.ofNat 19 (addr - p.base)) else none

end Sys2Proof.Machine
end

