-- ==== Sys2Proof/Machine/Convert.lean ====
section
/-! DEFINITION. CONVERT (41_convert R115 to R135): the checks, the two stages as the spec writes them, the commit. INTER and ACC
are locals of the computation, for nothing outside a CONVERT can observe them (10_state R47, R48; notes/assumptions/10.md). -/

namespace Sys2Proof.Machine

/-- One turn of stage 1's inner loop: read the byte of pixel (x, y), accumulate its bit into bit `y mod 8` of ACC, and emit ACC
into INTER at `x*pages + y/8` when 8 rows are done or the last row is reached; ACC then starts at 0 again (41_convert R120). -/
def stage1Row (src : Memory 8) (W H x : Nat) (st : Byte × Memory 8) (y : Nat) : Except Fault (Byte × Memory 8) :=
  match engineRead src (srcIndex W x y) with
  | .error e => .error e
  | .ok v =>
    let acc := st.1 ||| bitOf v (x % 8) <<< (y % 8)
    if y % 8 = 7 ∨ y = H - 1 then .ok (0, Memory.write st.2 (x * pages H + y / 8) acc)
    else .ok (acc, st.2)

/-- Stage 1's inner loop: column x of the source into INTER, ACC starting at 0 (41_convert R120). -/
def stage1Column (src : Memory 8) (W H : Nat) (inter : Memory 8) (x : Nat) : Except Fault (Memory 8) :=
  match loop (stage1Row src W H x) (0, inter) H with
  | .error e => .error e
  | .ok st => .ok st.2

/-- Stage 1, "Rotate+flip+pack": the column-major buffer in INTER (41_convert R120). -/
def stage1 (src : Memory 8) (W H : Nat) : Except Fault (Memory 8) := loop (stage1Column src W H) [] W

/-- One turn of stage 2's inner loop: `out[band*W + col] <- INTER[col*pages + band]` (41_convert R122). -/
def stage2Byte (inter : Memory 8) (W H band : Nat) (out : Memory 8) (col : Nat) : Except Fault (Memory 8) :=
  match engineRead inter (col * pages H + band) with
  | .error e => .error e
  | .ok v => .ok (Memory.write out (band * W + col) v)

/-- Stage 2's inner loop: one page of the output (41_convert R122). -/
def stage2Band (inter : Memory 8) (W H : Nat) (out : Memory 8) (band : Nat) : Except Fault (Memory 8) :=
  loop (stage2Byte inter W H band) out W

/-- Stage 2, "Transpose to page-major": a pure index permutation (41_convert R122). Stage 1 has written every byte of INTER it
reads, so it never faults. -/
def stage2 (inter : Memory 8) (W H : Nat) : Except Fault (Memory 8) := loop (stage2Band inter W H) [] (pages H)

/-- Both stages: the page-major buffer of the bitmap in `src` (41_convert R120, R122). -/
def convertBuffer (src : Memory 8) (W H : Nat) : Except Fault (Memory 8) :=
  match stage1 src W H with
  | .error e => .error e
  | .ok inter => stage2 inter W H

/-- The writes of the commit: `PBUF[a][i] <- out[i]` for every byte of out, then `LEN[a] <- n` (41_convert R123). -/
def convertWrites (a : Bank) (W H : Nat) (out : Memory 8) : List EngineWrite :=
  out.map (fun c => EngineWrite.pbuf a c.1 c.2) ++ [.len a (BitVec.ofNat 17 (outBytes W H))]

/-- `ConvertCmd(a)`: the checks in their order of priority, then the conversion (41_convert R117 to R123, 60_exceptions R169). -/
def convertCmd (a : Bank) (s : State) : CmdResult :=
  let W := s.width.toNat
  let H := s.height.toNat
  if W = 0 ∨ H = 0 then .ok (.error .invalidDimensions)
  else if srcBytes W H > s.params.srcCap then .ok (.error .allocationFailure)
  else if outBytes W H > s.params.pbufCap then .ok (.error .allocationFailure)
  else
    match convertBuffer s.src W H with
    | .error e => .error e
    | .ok out => .ok (.ok (convertWrites a W H out))

/-- CONVERT a, as one engine step (40_command R103, 41_convert R115). -/
def execConvert (a : Bank) (s : State) : Host.Outcome State Fault Refusal := finish (convertCmd a s) s

end Sys2Proof.Machine
end

