-- ==== Sys2Proof/Machine/Diff.lean ====
section
/-! DEFINITION. DIFF (42_diff R140 to R159): the checks, the dense scan, the commit. -/

namespace Sys2Proof.Machine

/-- One turn of the scan: where the two bytes at `addr` differ, append the entry (addr, new byte) (42_diff R143). -/
def scanByte (prev next : Memory 8) (es : List DiffEntry) (addr : Nat) : Except Fault (List DiffEntry) :=
  match engineRead prev addr with
  | .error e => .error e
  | .ok p =>
    match engineRead next addr with
    | .error e => .error e
    | .ok q => .ok (if p ≠ q then es ++ [{ addr := BitVec.ofNat 16 addr, value := q }] else es)

/-- The linear scan over addresses `[0, n)` (42_diff R143; 90_conflicts C7: half-open). -/
def scan (prev next : Memory 8) (n : Nat) : Except Fault (List DiffEntry) := loop (scanByte prev next) [] n

/-- The entry writes of the commit: `DIFFMEM[i] <- E[i]`, from index i on (42_diff R146). -/
def entryWrites (i : Nat) : List DiffEntry → List EngineWrite
  | [] => []
  | e :: es => .diffmem i (entryWord e) :: entryWrites (i + 1) es

/-- The writes of the commit: the entries `[0, k)`, then `DCOUNT <- k` (42_diff R146). -/
def diffWrites (es : List DiffEntry) : List EngineWrite :=
  entryWrites 0 es ++ [.dcount (BitVec.ofNat 17 es.length)]

/-- `DiffCmd(a, b)`: the checks in their order of priority, then the scan (42_diff R141 to R146, 60_exceptions R169). -/
def diffCmd (a b : Bank) (s : State) : CmdResult :=
  if s.len a ≠ s.len b then .ok (.error .dimensionMismatch)
  else if (s.len a).toNat > s.params.pbufCap then .ok (.error .allocationFailure)
  else
    match scan (s.pbuf a) (s.pbuf b) (s.len a).toNat with
    | .error e => .error e
    | .ok es => .ok (.ok (diffWrites es))

/-- DIFF a, b, as one engine step (40_command R103, 42_diff R140). -/
def execDiff (a b : Bank) (s : State) : Host.Outcome State Fault Refusal := finish (diffCmd a b s) s

end Sys2Proof.Machine
end

