-- ==== Sys2Proof/Machine/Nop.lean ====
section
/-! DEFINITION. NOP (40_command R106). -/

namespace Sys2Proof.Machine

/-- NOP: `Ok([])`, then completion; it writes no memory and no result register (40_command R106). -/
def execNop (s : State) : Host.Outcome State Fault Refusal := finish (.ok (.ok [])) s

end Sys2Proof.Machine
end

