-- ==== Sys2Proof/Machine/Dispatch.lean ====
section
/-! DEFINITION. `exec`: one arm per command. -/

namespace Sys2Proof.Machine

-- The engine step of 40_command R103 for a decoded command.
def exec (i : Instr) (s : State) : Host.Outcome State Fault Refusal :=
  match i with
  | .nop => Sys2Proof.Machine.execNop s
  | .convert a => Sys2Proof.Machine.execConvert a s
  | .diff a b => Sys2Proof.Machine.execDiff a b s

end Sys2Proof.Machine
end

