-- ==== Sys2Proof/Machine/Flags.lean ====
section
/-! DEFINITION. The STATUS word, its write-1-to-clear bits, and the interrupt output (10_state R32 to R37, R42, R43). -/

namespace Sys2Proof.Machine

/-- STATUS as the host reads it: ERR [7:4], HAZ [3], ERRV [2], DONE [1], BUSY [0], the rest 0 (10_state R32). -/
def Status.word (t : Status) : Word :=
  (t.err ++ BitVec.ofBool t.haz ++ BitVec.ofBool t.errv ++ BitVec.ofBool t.done ++ BitVec.ofBool t.busy).setWidth 32

/-- A host write of d to STATUS: bit 1 clears DONE, bit 2 clears ERRV and ERR together, bit 3 clears HAZ; BUSY and ERR are
read-only (10_state R32 to R36). -/
def Status.writeOneToClear (t : Status) (d : Word) : Status :=
  { t with
    done := t.done && !d.getLsbD 1
    errv := t.errv && !d.getLsbD 2
    err := if d.getLsbD 2 then 0 else t.err
    haz := t.haz && !d.getLsbD 3 }

/-- IRQEN.DONEIE, bit 0 (10_state R42). -/
def State.doneie (s : State) : Bool := s.irqen.getLsbD 0

/-- IRQEN.ERRIE, bit 1 (10_state R42). -/
def State.errie (s : State) : Bool := s.irqen.getLsbD 1

/-- IRQEN.HAZIE, bit 2 (10_state R42). -/
def State.hazie (s : State) : Bool := s.irqen.getLsbD 2

/-- The `irq` output, a level (10_state R43). -/
def State.irq (s : State) : Bool :=
  (s.status.done && s.doneie) || (s.status.errv && s.errie) || (s.status.haz && s.hazie)

end Sys2Proof.Machine
end

