-- ==== Sys2Proof/Machine/HostPort.lean ====
section
/-! DEFINITION. Host transactions (20_memory R60 to R71) and the busy-access hazard (70_reset R200). -/

namespace Sys2Proof.Machine

/-- A transaction that gets a bus error: a response only, with no effect on any state (20_memory R62, R63). -/
def busError (s : State) : Response × State := (.busError, s)

/-- A write that is acknowledged and has no effect. -/
def ignored (s : State) : Response × State := (.ack, s)

/-- A write that meets a busy-access hazard: dropped, `HAZ <- 1` (70_reset R200). -/
def droppedWrite (s : State) : Response × State := (.ack, s.setHaz)

/-! ### The REG window -/

/-- What a register reads as, busy or not (10_state R26 to R42, 70_reset R200). -/
def regValue (s : State) : Reg → Word
  | .id => 0x58424E01
  | .srccap => BitVec.ofNat 32 s.params.srcCap
  | .pbufcap => BitVec.ofNat 32 s.params.pbufCap
  | .cmd => 0
  | .status => s.status.word
  | .width => s.width.setWidth 32
  | .height => s.height.setWidth 32
  | .len0 => s.len0.setWidth 32
  | .len1 => s.len1.setWidth 32
  | .dcount => s.dcount.setWidth 32
  | .irqen => s.irqen.setWidth 32

/-- An aligned 32-bit read of the REG window; a reserved offset reads 0 (10_state R27). -/
def regRead (off : Nat) (s : State) : Response × State :=
  match regAt off with
  | some r => (.data32 (regValue s r), s)
  | none => (.data32 0, s)

/-- A write that needs BUSY = 0: served then, a hazard otherwise (70_reset R200). -/
def whenIdle (s t : State) : Response × State := if s.status.busy then droppedWrite s else (.ack, t)

/-- A write of d to a register: the written field bits are stored, reserved bits are ignored (10_state R26 to R42; while
BUSY = 1, 70_reset R200). -/
def regStore (r : Reg) (d : Word) (s : State) : Response × State :=
  match r with
  | .id => ignored s
  | .srccap => ignored s
  | .pbufcap => ignored s
  | .cmd => whenIdle s (s.accept d)
  | .status => (.ack, s.setStatus (s.status.writeOneToClear d))
  | .width => whenIdle s (s.setWidth (d.extractLsb' 0 16))
  | .height => whenIdle s (s.setHeight (d.extractLsb' 0 16))
  | .len0 => whenIdle s (s.setLen .bank0 (d.extractLsb' 0 17))
  | .len1 => whenIdle s (s.setLen .bank1 (d.extractLsb' 0 17))
  | .dcount => ignored s
  | .irqen => (.ack, s.setIrqen (d.extractLsb' 0 3))

/-- An aligned 32-bit write to the REG window; a reserved offset ignores it (10_state R27). -/
def regWrite (off : Nat) (d : Word) (s : State) : Response × State :=
  match regAt off with
  | some r => regStore r d s
  | none => ignored s

/-- A transaction on the REG window: 32-bit and aligned only (20_memory R62). -/
def regAccess (a : BitVec 19) (acc : Access) (s : State) : Response × State :=
  match acc with
  | .read32 => if aligned a then regRead (byteIndex a) s else busError s
  | .write32 d => if aligned a then regWrite (byteIndex a) d s else busError s
  | .read8 => busError s
  | .write8 _ => busError s

/-! ### The byte windows -/

/-- An 8-bit read that returns a draw. -/
def drawnByte (s : State) : Response × State := (.data8 s.takeByte.1, s.takeByte.2)

/-- A 32-bit read that returns a draw. -/
def drawnWord (s : State) : Response × State := (.data32 s.takeWord.1, s.takeWord.2)

/-- An 8-bit read of a memory of capacity `cap` with contents m, at index i (20_memory R68, R69; while BUSY = 1, 70_reset R200). -/
def byteRead (m : Memory 8) (cap i : Nat) (s : State) : Response × State :=
  if s.status.busy then drawnByte s.setHaz
  else if i < cap then
    match Memory.read m i with
    | some v => (.data8 v, s)
    | none => drawnByte s
  else (.data8 0, s)

/-- An 8-bit write at index i of a memory of capacity `cap`; `t` is the state with the byte stored (20_memory R68, R69; while
BUSY = 1, 70_reset R200). -/
def byteWrite (cap i : Nat) (s t : State) : Response × State :=
  if s.status.busy then droppedWrite s
  else if i < cap then (.ack, t)
  else ignored s

/-- A transaction on the SRC window: 8-bit only (20_memory R62, R68). -/
def srcAccess (i : Nat) (acc : Access) (s : State) : Response × State :=
  match acc with
  | .read8 => byteRead s.src s.params.srcCap i s
  | .write8 d => byteWrite s.params.srcCap i s (s.setSrc (Memory.write s.src i d))
  | .read32 => busError s
  | .write32 _ => busError s

/-- A transaction on the window of bank b: 8-bit only (20_memory R62, R69); LEN[b] does not change. -/
def pbufAccess (b : Bank) (i : Nat) (acc : Access) (s : State) : Response × State :=
  match acc with
  | .read8 => byteRead (s.pbuf b) s.params.pbufCap i s
  | .write8 d => byteWrite s.params.pbufCap i s (s.setPbuf b (Memory.write (s.pbuf b) i d))
  | .read32 => busError s
  | .write32 _ => busError s

/-! ### The DIFF window -/

/-- An aligned 32-bit read of DIFFMEM entry i (20_memory R70; while BUSY = 1, 70_reset R200). -/
def entryRead (i : Nat) (s : State) : Response × State :=
  if s.status.busy then drawnWord s.setHaz
  else if i < s.params.pbufCap then
    match Memory.read s.diffmem i with
    | some w => (.data32 w, s)
    | none => drawnWord s
  else (.data32 0, s)

/-- An aligned 32-bit write to the DIFF window: ignored, without a bus error (20_memory R70; while BUSY = 1, 70_reset R200). -/
def entryWrite (s : State) : Response × State := if s.status.busy then droppedWrite s else ignored s

/-- A transaction on the DIFF window: 32-bit and aligned only (20_memory R62, R70). -/
def diffAccess (a : BitVec 19) (acc : Access) (s : State) : Response × State :=
  match acc with
  | .read32 => if aligned a then entryRead (entryIndex a) s else busError s
  | .write32 _ => if aligned a then entryWrite s else busError s
  | .read8 => busError s
  | .write8 _ => busError s

/-! ### One transaction -/

/-- One host transaction at offset a (20_memory R60, R61): the answer, and the state after it. -/
def hostAccess (a : BitVec 19) (acc : Access) (s : State) : Response × State :=
  match windowOf a with
  | .reg => regAccess a acc s
  | .src => srcAccess (byteIndex a) acc s
  | .pbuf b => pbufAccess b (byteIndex a) acc s
  | .diff => diffAccess a acc s

/-- The answer is handed to the host. -/
def answer (r : Response × State) : State := r.2.emit r.1

/-- One host transaction at a platform address: unanswered while `rst_n` is low (70_reset R190) and outside the XBN's own
512 KiB (20_memory R60, R78). -/
def hostTurn (addr : Nat) (acc : Access) (s : State) : State :=
  if s.rstN then
    match offsetOf s.params addr with
    | some a => answer (hostAccess a acc s)
    | none => s.emit .noAnswer
  else s.emit .noAnswer

end Sys2Proof.Machine
end

