-- ==== Sys2Proof/Machine/Engine.lean ====
section
/-! DEFINITION. The engine step (40_command R103), illegal words (R107), and one event of the machine (10_state R23). -/

namespace Sys2Proof.Machine

/-- ILLEGAL: `Err(IllegalCommand)` and nothing else, before any other check (40_command R107, 60_exceptions R166, R169). -/
def execIllegal (s : State) : Host.Outcome State Fault Refusal := finish (.ok (.error .illegalCommand)) s

/-- Decode and run an accepted word (40_command R103). -/
def runWord (w : Word) (s : State) : Host.Outcome State Fault Refusal :=
  match decode w with
  | .ok i => exec i s
  | .error _ => execIllegal s

/-- The engine's turn: its step is enabled exactly when a command is pending; else nothing happens (40_command R103). -/
def engineTurn (s : State) : Host.Outcome State Fault Refusal :=
  match s.pending with
  | some w => if s.rstN then runWord w s else .next s
  | none => .next s

/-- One event (10_state R23). -/
def turn (e : Event) (s : State) : Host.Outcome State Fault Refusal :=
  match e with
  | .access addr acc => .next (hostTurn addr acc s)
  | .engineTurn => engineTurn s
  | .resetAssert => .next s.enterReset
  | .resetRelease => .next (s.setRstN true)

/-- The next event of the machine: the first one listed, and the engine's turn when none is (notes/assumptions/3.md). -/
def nextEvent (s : State) : Host.Outcome State Fault Refusal :=
  match s.inbox with
  | [] => engineTurn s
  | e :: rest => turn e (s.setInbox rest)

/-- The state in which the word with bits w has just been accepted (40_command R101) and the engine moves next, out of reset.
With no event listed the engine moves anyway; else its turn is put before them. -/
def placeCommand (s : State) (w : Word) : State :=
  match s.inbox with
  | [] => (s.accept w).setRstN true
  | es => ((s.accept w).setRstN true).setInbox (.engineTurn :: es)

end Sys2Proof.Machine
end

