-- ==== Sys2Proof/Machine/Step.lean ====
section
/-! DEFINITION. `step`, one event of the machine, and the state in which a given command is the next thing to run. -/

namespace Sys2Proof.Machine

/-- One step: one atomic event (10_state R23). -/
def step (s : State) : Host.Outcome State Fault Refusal := nextEvent s

/-- `s` with the command word with bits w accepted and the engine's turn next (notes/assumptions/11.md): the XBN fetches no
instructions, a command arrives as one host write to CMD (10_state R21, R31). -/
def State.withFetchWord (s : State) (nbits w : Nat) : State := placeCommand s (tableWord nbits w)

end Sys2Proof.Machine
end

