-- ==== Sys2Proof/Machine/HostProgram.lean ====
section
/-! DEFINITION. The notation for host-side programs (30_encoding R89 to R91): a test notation that adds no state to the XBN. A program
is a list of operations; its labels are positions in the list. -/

namespace Sys2Proof.Machine

/-- The byte memories a host program can name (R90): SRC, PBUF0, PBUF1. -/
inductive ByteWindow where
  | src
  | pbuf (b : Bank)
deriving DecidableEq, Repr

/-- Host operations (R90): five that are one transaction each, and two that are local to the host. The spec gives the index i
no bound, and it has none here (DESIGN CHOICE, notes/assumptions/19.md). -/
inductive HostOp where
  | wr32 (r : Reg) (imm : Word)
  | rd32 (r : Reg)
  | wr8 (w : ByteWindow) (i : Nat) (imm : Byte)
  | rd8 (w : ByteWindow) (i : Nat)
  | rd32Diff (i : Nat)
  /-- Jump to the position `label` if bit n of `v` is 0. -/
  | bclr (n label : Nat)
  /-- Jump to the position `label` if bit n of `v` is 1. -/
  | bset (n label : Nat)
deriving DecidableEq, Repr

/-- What a host program holds: its position and the host variable `v` (R90). The spec states no width of `v`: 32 bits, which hold
the data of any read, so that bit n of `v` is 0 for n of 32 or more (DESIGN CHOICE, notes/assumptions/20.md, unsafe). -/
structure HostVars where
  position : Nat
  v : Word
deriving DecidableEq, Repr

/-- The base offset of a byte window (10_state R24). -/
def windowBase : ByteWindow → Nat
  | .src => 0x10000
  | .pbuf .bank0 => 0x20000
  | .pbuf .bank1 => 0x30000

/-- The offset and the access of an operation's transaction (R90); none for the host-local ones. An index beyond its
window gives the offset `window_base + i` all the same, in whichever window it lies (DESIGN CHOICE, notes/assumptions/19.md). -/
def hostTransaction : HostOp → Option (Nat × Access)
  | .wr32 r imm => some (regOffset r, .write32 imm)
  | .rd32 r => some (regOffset r, .read32)
  | .wr8 w i imm => some (windowBase w + i, .write8 imm)
  | .rd8 w i => some (windowBase w + i, .read8)
  | .rd32Diff i => some (0x40000 + 4 * i, .read32)
  | .bclr _ _ => none
  | .bset _ _ => none

/-- `v` after an answer: read data goes to `v`, zero-extended (00_scope R11); a bus error, or no answer, gives a host program no
continuation (93_implementation_defined I12). -/
def resultVariable (v : Word) : Response → Option Word
  | .data8 d => some (d.setWidth 32)
  | .data32 d => some d
  | .ack => some v
  | .busError => none
  | .noAnswer => none

/-- The host's move for one operation, on an XBN out of reset; `none` where the program has no continuation. An offset of
`0x80000` or more is no transaction of the XBN (20_memory R60), and what the platform does there is its own (R78; notes/assumptions/19.md). -/
def hostOp (op : HostOp) (h : HostVars) (s : State) : Option (HostVars × State) :=
  match op with
  | .bclr n l => some ({ h with position := if h.v.getLsbD n then h.position + 1 else l }, s)
  | .bset n l => some ({ h with position := if h.v.getLsbD n then l else h.position + 1 }, s)
  | .wr32 _ _ | .rd32 _ | .wr8 _ _ _ | .rd8 _ _ | .rd32Diff _ =>
    match hostTransaction op with
    | none => none
    | some (off, acc) =>
      if off < 0x80000 then
        let r := hostAccess (BitVec.ofNat 19 off) acc s
        (resultVariable h.v r.1).map fun v => ({ position := h.position + 1, v := v }, answer r)
      else none

/-- The host's next move in a program; none past its end. -/
def hostStep (prog : List HostOp) (h : HostVars) (s : State) : Option (HostVars × State) :=
  match prog[h.position]? with
  | some op => hostOp op h s
  | none => none

/-- `cmd <command>`: `wr32 CMD, <its word>` (R91). -/
def cmd (i : Instr) : HostOp := .wr32 .cmd (encode i)

/-- `wait`, standing at position `here`: poll STATUS until DONE = 1 (R91). -/
def wait (here : Nat) : List HostOp := [.rd32 .status, .bclr 1 here]

/-- `clrstat`: clear DONE, ERRV with ERR, and HAZ (R91). -/
def clrstat : HostOp := .wr32 .status 0x0000000E

/-- `fill <WIN>[lo..hi), <imm8>`: one `wr8` for each index from lo to hi - 1, ascending (R91); none where hi is not above lo. The
spec bounds neither; no index wraps (notes/assumptions/19.md). -/
def fill (w : ByteWindow) (lo hi : Nat) (imm : Byte) : List HostOp :=
  (List.range (hi - lo)).map fun k => .wr8 w (lo + k) imm

end Sys2Proof.Machine
end

