-- ==== Sys2Proof/Machine/Reference.lean ====
section
/-! DEFINITION. The spec's reference functions (00_scope R13) and the boundary to the consumer of a FrameDiff (42_diff R152 to R156):
no hardware state, what the laws are stated against. -/

namespace Sys2Proof.Machine

/-- The values of a memory in the order they stand, which for a canonical one is the order of their indices. -/
def Memory.values {w : Nat} (m : Memory w) : List (BitVec w) := m.map fun c => c.2

/-- `RefConvert(W, H, src)`: what stage 1 followed by stage 2 gives when SRC is the byte list src (41_convert R121). -/
def refConvert (W H : Nat) (src : List Byte) : Except Fault (List Byte) :=
  match convertBuffer (Memory.ofListFrom 0 src) W H with
  | .error e => .error e
  | .ok out => .ok out.values

/-- `RefDiff(prev, next)` from address `addr` on: every address where the lists differ, ascending, with the new byte
(42_diff R144). The spec defines it for lists of equal length, and its addresses are 16 bits wide (00_scope R6, R9): that the list
ends with the shorter of two unequal ones, and that an address above 65535 is cut to 16 bits, is the model's
(DESIGN CHOICE, notes/assumptions/18.md, unsafe). -/
def refDiffFrom (addr : Nat) : List Byte → List Byte → List DiffEntry
  | p :: ps, q :: qs =>
    if p ≠ q then { addr := BitVec.ofNat 16 addr, value := q } :: refDiffFrom (addr + 1) ps qs
    else refDiffFrom (addr + 1) ps qs
  | _, _ => []

/-- `RefDiff(prev, next)` (42_diff R144). -/
def refDiff (prev next : List Byte) : List DiffEntry := refDiffFrom 0 prev next

/-- `ApplyDiff(buf, d)`: the entries written, in order, onto a copy of buf (42_diff R152). The spec does not say what an entry
with an address at or beyond the length of buf does: here it writes nothing, and buf keeps its length
(DESIGN CHOICE, notes/assumptions/18.md, unsafe). -/
def applyDiff (buf : List Byte) (d : List DiffEntry) : List Byte :=
  d.foldl (fun b e => b.set e.addr.toNat e.value) buf

/-- Pixel (x, y) of a source bitmap of width W whose byte at index i is `src i` (20_memory R65). -/
def sourcePixel (src : Nat → Byte) (W x y : Nat) : Byte := bitOf (src (srcIndex W x y)) (x % 8)

/-- The closed form of CONVERT: the byte at page p, column x, as the sum over the rows `8p + b < H` (41_convert R124). -/
def closedByte (src : Nat → Byte) (W H p x : Nat) : Byte :=
  ((List.range 8).map fun b => if 8 * p + b < H then sourcePixel src W x (8 * p + b) <<< b else 0).sum

/-- The first n bytes of a memory, an unwritten one read as 0; used only where all of them are written. -/
def Memory.firstBytes (m : Memory 8) (n : Nat) : List Byte := (List.range n).map fun i => (Memory.read m i).getD 0

/-- The first k entries of a DIFFMEM, an unwritten one read as the entry of the word 0; used only where all are written. -/
def Memory.firstEntries (m : Memory 32) (k : Nat) : List DiffEntry :=
  (List.range k).map fun i => entryOf ((Memory.read m i).getD 0)

/-- A consumer's decode of an entry address: (page, column), with the width W of the frames compared (42_diff R155;
90_conflicts C1: never a fixed 84). W is the width of a frame; that W = 0 gives page 0 is the model's
(DESIGN CHOICE, notes/assumptions/18.md, unsafe). -/
def displayPosition (W addr : Nat) : Nat × Nat := (addr / W, addr - addr / W * W)

end Sys2Proof.Machine
end

