-- ==== Sys2Proof/Safety.lean ====
section
/-! DEFINITION. The terms claims use: legal operands, written memory, correctly sized transactions, and the invariants of the machine. -/

namespace Sys2Proof.Machine

/-! ### Operands -/

/-- W of the next CONVERT (10_state R38). -/
def State.W (s : State) : Nat := s.width.toNat

/-- H of the next CONVERT (10_state R39). -/
def State.H (s : State) : Nat := s.height.toNat

/-- The first n indices of a memory are written (10_state R50). -/
abbrev AllWritten {w : Nat} (m : Memory w) (n : Nat) : Prop := ∀ i < n, (Memory.read m i).isSome = true

/-- SRC's byte at index i, for statements that assume it written. -/
def State.srcByte (s : State) (i : Nat) : Byte := (Memory.read s.src i).getD 0

/-- No check of CONVERT fails: both dimensions positive, both buffers fit (41_convert R117 to R119). -/
abbrev ConvertLegal (s : State) : Prop :=
  0 < s.W ∧ 0 < s.H ∧ srcBytes s.W s.H ≤ s.params.srcCap ∧ outBytes s.W s.H ≤ s.params.pbufCap

/-- No check of DIFF a, b fails: equal lengths, and they fit (42_diff R141, R142). -/
abbrev DiffLegal (a b : Bank) (s : State) : Prop := s.len a = s.len b ∧ (s.len a).toNat ≤ s.params.pbufCap

/-! ### Outcomes of a command -/

/-- STATUS after a successful completion (40_command R104). -/
def Status.succeeded (t : Status) : Status := { t with busy := false, done := true }

/-- STATUS after a completion with error e (60_exceptions R164). -/
def Status.failed (t : Status) (e : CmdError) : Status :=
  { t with busy := false, done := true, errv := true, err := errorCode e }

/-- The state after a completion with error e: the state before the command, except STATUS (60_exceptions R164). -/
def State.failed (s : State) (e : CmdError) : State := { s with status := s.status.failed e, pending := none }

/-- What k steps lead to, stopping at the first fault or refusal. -/
def runFor : Nat → State → Host.Outcome State Fault Refusal
  | 0, s => .next s
  | k + 1, s =>
    match step s with
    | .next t => runFor k t
    | .fault f => .fault f
    | .refused q => .refused q

/-- A run is safe if no step of it records a fault (70_reset R197: claims take "no fault recorded" as a premise). -/
def SafeFor (k : Nat) (s : State) : Prop := ∀ j ≤ k, ∀ f, runFor j s ≠ .fault f

/-! ### Host transactions -/

/-- The transaction has a size and an alignment that its window accepts (20_memory R62). -/
def sizeAccepted (a : BitVec 19) (acc : Access) : Bool :=
  match windowOf a, acc with
  | .reg, .read32 => aligned a
  | .reg, .write32 _ => aligned a
  | .diff, .read32 => aligned a
  | .diff, .write32 _ => aligned a
  | .src, .read8 => true
  | .src, .write8 _ => true
  | .pbuf _, .read8 => true
  | .pbuf _, .write8 _ => true
  | _, _ => false

/-- The offset of a register in the host port's 19 bits (10_state R25). -/
def regAddress (r : Reg) : BitVec 19 := BitVec.ofNat 19 (regOffset r)

/-! ### Invariants -/

/-- Every memory is in canonical form and lists nothing at or above its capacity (10_state R44 to R46). -/
def MemoriesCanonical (s : State) : Prop :=
  (Memory.wf s.src = true ∧ Memory.within s.params.srcCap s.src = true) ∧
  (Memory.wf s.pbuf0 = true ∧ Memory.within s.params.pbufCap s.pbuf0 = true) ∧
  (Memory.wf s.pbuf1 = true ∧ Memory.within s.params.pbufCap s.pbuf1 = true) ∧
  (Memory.wf s.diffmem = true ∧ Memory.within s.params.pbufCap s.diffmem = true)

/-- BUSY says whether a command is pending (10_state R33, R49), and while one is, DONE, ERRV and ERR are as acceptance left
them (40_command R101). -/
def LifecycleConsistent (s : State) : Prop :=
  s.status.busy = s.pending.isSome ∧
  (s.status.busy = true → s.status.done = false ∧ s.status.errv = false ∧ s.status.err = 0)

/-- ERR holds a code 1 to 4 while ERRV = 1, and 0 while ERRV = 0 (10_state R37). -/
def ErrorCodeLegal (s : State) : Prop :=
  (s.status.errv = true → ∃ e, s.status.err = errorCode e) ∧ (s.status.errv = false → s.status.err = 0)

/-- DIFFMEM's first DCOUNT entries are a FrameDiff: written, their addresses below the capacity and strictly rising; and
every entry has bits [31:24] clear (10_state R41, R46; 20_memory R67; 42_diff R147, R157). -/
def FrameDiffStored (s : State) : Prop :=
  s.dcount.toNat ≤ s.params.pbufCap ∧
  (∀ i < s.dcount.toNat, ∃ w, Memory.read s.diffmem i = some w ∧ (entryOf w).addr.toNat < s.params.pbufCap) ∧
  (∀ i j v w, i < j → j < s.dcount.toNat → Memory.read s.diffmem i = some v → Memory.read s.diffmem j = some w →
    (entryOf v).addr < (entryOf w).addr) ∧
  (∀ i w, Memory.read s.diffmem i = some w → w.extractLsb' 24 8 = 0)

/-- While `rst_n` is low, every piece of the spec's state has its reset value (70_reset R190, R191). -/
def QuietInReset (s : State) : Prop := s.rstN = false → s.enterReset = s

end Sys2Proof.Machine
end

