-- ==== Sys2Proof/Certificates/Slice0/Obligations.lean ====
section
/-! DEFINITION. The statements about the XBN, from the numbered rules of spec/. A statement about a host read that returns a draw
holds for every value of the draw. `s.W` and `s.H` are the dimensions WIDTH and HEIGHT hold. -/

open Sys2Proof Sys2Proof.Machine

/-! ### Encoding -/

/-- 30_encoding R84 to R88: a word decodes to a command exactly when it is that command's word. No bit of an encoding is
dropped, and no command has a second word. -/
def Obligations.DecodeAndEncodeAgree : Prop := ∀ (w : Word) (i : Instr), decode w = .ok i ↔ w = encode i

/-- 30_encoding R84, R85, R86: the match and mask of each command, its operand bits, and every encoding it has. -/
def Obligations.DecodeMatchesOpcodeTable : Prop :=
  (∀ w : Word,
    (decode w = .ok .nop ↔ w &&& 0xFFFFFFFF = 0x00000000) ∧
    (∀ a, decode w = .ok (.convert a) ↔ w &&& 0xFFFFFEFF = 0x00000001 ∧ w.getLsbD 8 = bitOfBank a) ∧
    (∀ a b, decode w = .ok (.diff a b) ↔
      w &&& 0xFFFFFCFF = 0x00000002 ∧ w.getLsbD 8 = bitOfBank a ∧ w.getLsbD 9 = bitOfBank b)) ∧
  encode .nop = 0x00000000 ∧
  encode (.convert .bank0) = 0x00000001 ∧ encode (.convert .bank1) = 0x00000101 ∧
  encode (.diff .bank0 .bank0) = 0x00000002 ∧ encode (.diff .bank1 .bank0) = 0x00000102 ∧
  encode (.diff .bank0 .bank1) = 0x00000202 ∧ encode (.diff .bank1 .bank1) = 0x00000302

/-- Words written out bit by bit from the patterns of 30_encoding R84 to R86 decode to the commands they stand for, and the
illegal words of 95_test_vectors 2.1 to none. -/
def Obligations.WrittenOutWordsDecode : Prop :=
  decode 0b00000000000000000000000000000000#32 = .ok .nop ∧
  decode 0b00000000000000000000000000000001#32 = .ok (.convert .bank0) ∧
  decode 0b00000000000000000000000100000001#32 = .ok (.convert .bank1) ∧
  decode 0b00000000000000000000000100000010#32 = .ok (.diff .bank1 .bank0) ∧
  decode 0b00000000000000000000001000000010#32 = .ok (.diff .bank0 .bank1) ∧
  decode 0x00000100 = .error .nopWithBank ∧ decode 0x00000201 = .error .convertWithB ∧
  decode 0x00000003 = .error .reservedOpcode ∧ decode 0x00000012 = .error .rsv0 ∧ decode 0x00000402 = .error .rsv1

/-- 30_encoding R87, 40_command R107, 60_exceptions R166: the words no bullet of R87 leaves legal are exactly those the decoder
rejects, and such a word, once accepted, completes with IllegalCommand (code 4) and no other effect. -/
def Obligations.IllegalWordsFail : Prop :=
  (∀ w : Word, (∃ e, decode w = .error e) ↔ w.wellFormed = false) ∧
  (∀ (s : State) (w : Word), s.rstN = true → s.pending = some w → w.wellFormed = false →
    engineTurn s = .next (s.failed .illegalCommand)) ∧
  errorCode .illegalCommand = 4

/-- 20_memory R64: a word carried as four byte lanes, lane j = bits [8j+7:8j], is the same word and decodes the same. -/
def Obligations.LanesCarryTheWord : Prop :=
  ∀ w : Word,
    (∀ j < 4, ∀ k < 8, (w.lane j).getLsbD k = w.getLsbD (8 * j + k)) ∧
    Word.ofLanes (w.lane 0) (w.lane 1) (w.lane 2) (w.lane 3) = w ∧
    decodeBytes [w.lane 0, w.lane 1, w.lane 2, w.lane 3] = decode w

/-! ### The step and the lifecycle of a command -/

/-- 40_command R103: when a pending word decodes to the command i and it is the engine's turn, the step is `exec i`; around it
the step only removes the event it serves. The engine's turn is `engineTurn` in every state, an illegal word pending included (R107).
A command placed by `withFetchWord` is run by the very next step. -/
def Obligations.StepRunsDecodedCommand : Prop :=
  (∀ s : State,
    (s.inbox = [] → step s = engineTurn s) ∧
    (∀ rest, s.inbox = .engineTurn :: rest → step s = engineTurn { s with inbox := rest })) ∧
  (∀ (s : State) (w : Word) (i : Instr), s.rstN = true → s.pending = some w → decode w = .ok i →
    (s.inbox = [] → step s = exec i s) ∧
    (∀ rest, s.inbox = .engineTurn :: rest → step s = exec i { s with inbox := rest })) ∧
  (∀ (s : State) (i : Instr),
    step (s.withFetchWord 32 (encode i).toNat) = exec i { s.accept (encode i) with rstN := true })

/-- 40_command R101, R102: a word written to CMD is accepted while idle, whatever its bits, and an irq that a completion raised
falls, unless HAZ keeps it up; while busy it is dropped, HAZ is set, and PENDING keeps the running command. -/
def Obligations.CmdWriteAcceptsOrDrops : Prop :=
  ∀ (s : State) (w : Word),
    (s.status.busy = false →
      hostAccess (regAddress .cmd) (.write32 w) s =
        (.ack, { s with
          pending := some w
          status := { busy := true, done := false, errv := false, haz := s.status.haz, err := 0 } }) ∧
      (s.status.haz = false ∨ s.hazie = false → (s.accept w).irq = false)) ∧
    (s.status.busy = true →
      hostAccess (regAddress .cmd) (.write32 w) s = (.ack, { s with status := { s.status with haz := true } }))

/-- 40_command R100, "This is the only way a command starts": a step after which a command is pending, where none was before,
served a 32-bit write of that word to CMD while BUSY = 0. -/
def Obligations.OnlyCmdWriteStartsCommand : Prop :=
  ∀ (s t : State) (w : Word), step s = .next t → s.pending = none → t.pending = some w →
    ∃ addr rest, s.inbox = .access addr (.write32 w) :: rest ∧
      offsetOf s.params addr = some (regAddress .cmd) ∧ s.status.busy = false ∧ s.rstN = true

/-- 10_state R33: a step sets BUSY only by accepting a CMD write and clears it only by a completion or by reset. -/
def Obligations.BusyChangesOnlyByCommand : Prop :=
  ∀ s t : State, step s = .next t →
    (s.status.busy = false → t.status.busy = true →
      ∃ addr w rest, s.inbox = .access addr (.write32 w) :: rest ∧
        offsetOf s.params addr = some (regAddress .cmd) ∧ t.pending = some w) ∧
    (s.status.busy = true → t.status.busy = false →
      ((s.inbox = [] ∨ ∃ rest, s.inbox = .engineTurn :: rest) ∧ t.status.done = true ∧ t.pending = none) ∨
      ∃ rest, s.inbox = .resetAssert :: rest)

/-- 40_command R104: every completion sets BUSY, DONE and PENDING, leaves HAZ, raises irq if the enables allow it, and tells
success from failure by ERRV, with ERR a code of 60_exceptions R161. -/
def Obligations.EveryCompletionSetsDone : Prop :=
  ∀ (s t : State) (w : Word), s.rstN = true → s.pending = some w → s.status.errv = false → s.status.err = 0 →
    engineTurn s = .next t →
    t.status.busy = false ∧ t.status.done = true ∧ t.pending = none ∧ t.status.haz = s.status.haz ∧
    (t.doneie = true ∨ t.status.errv = true ∧ t.errie = true → t.irq = true) ∧
    (t.status = s.status.succeeded ∧ t.status.errv = false ∧ t.status.err = 0 ∨
      ∃ e, t.status = s.status.failed e ∧ t.status.errv = true ∧ t.status.err = errorCode e)

/-- 60_exceptions R164, "Errors are precise": a command that ends with an error leaves the state before it, except STATUS. -/
def Obligations.FailedCommandChangesOnlyStatus : Prop :=
  ∀ (s t : State) (w : Word), s.rstN = true → s.pending = some w → s.status.errv = false →
    engineTurn s = .next t → t.status.errv = true →
    ∃ e, t = { s with
      pending := none
      status := { busy := false, done := true, errv := true, haz := s.status.haz, err := errorCode e } }

/-- 40_command R110: what commands never write, over all commands. -/
def Obligations.CommandsKeepOperandRegisters : Prop :=
  ∀ (i : Instr) (s t : State), exec i s = .next t →
    t.width = s.width ∧ t.height = s.height ∧ t.irqen = s.irqen ∧ t.src = s.src ∧ t.params = s.params ∧
    t.status.haz = s.status.haz ∧
    (∀ b, i ≠ .convert b → t.pbuf b = s.pbuf b ∧ t.len b = s.len b) ∧
    ((∀ a b, i ≠ .diff a b) → t.diffmem = s.diffmem ∧ t.dcount = s.dcount)

/-- 40_command R109, 70_reset R204: an accepted command completes (or faults on an unwritten byte, or is abandoned by a reset)
after finitely many steps, whatever host transactions come first. The bound is the model's: the engine moves when no event is
listed (notes/assumptions/3.md). -/
def Obligations.PendingCommandCompletes : Prop :=
  ∀ s : State, s.rstN = true → s.pending.isSome = true →
    ∃ k ≤ s.inbox.length + 1,
      (∃ t, runFor k s = .next t ∧ t.pending = none) ∨
      runFor k s = .fault .uninitRead

/-- A step never refuses and its one fault is UninitRead (70_reset R197), so a run that records no fault answers a state: every
command, every illegal word and every transaction has its effect. -/
def Obligations.SafeRunsAnswerAState : Prop :=
  ∀ (s : State) (k : Nat), SafeFor k s → ∃ t, runFor k s = .next t

/-- 40_command R108, 60_exceptions R167, 70_reset R200, R201: no host transaction while BUSY = 1 changes what the running command
reads, nor its result; nor, where STATUS is as acceptance left it (`LifecycleConsistent`, which every step keeps), its outcome in
BUSY, DONE, ERRV and ERR. -/
def Obligations.BusyHostCannotAffectCommand : Prop :=
  ∀ (s : State) (addr : Nat) (acc : Access), s.status.busy = true →
    (hostTurn addr acc s).pending = s.pending ∧
    ∀ i : Instr,
      (∀ f, exec i s = .fault f ↔ exec i (hostTurn addr acc s) = .fault f) ∧
      (∀ u v, exec i s = .next u → exec i (hostTurn addr acc s) = .next v →
        u.pbuf0 = v.pbuf0 ∧ u.pbuf1 = v.pbuf1 ∧ u.len0 = v.len0 ∧ u.len1 = v.len1 ∧ u.diffmem = v.diffmem ∧
        u.dcount = v.dcount ∧ u.src = v.src ∧ u.width = v.width ∧ u.height = v.height ∧ u.pending = v.pending ∧
        (LifecycleConsistent s → u.status.busy = v.status.busy ∧ u.status.done = v.status.done ∧
          u.status.errv = v.status.errv ∧ u.status.err = v.status.err))

/-- 70_reset R202: with no command pending, no step but a reset changes DIFFMEM or DCOUNT; only a host write in a bank's own window
changes the bank, and only a host write to its LEN register changes its LEN. -/
def Obligations.OutputsHoldStillWhenIdle : Prop :=
  ∀ s t : State, step s = .next t → s.pending = none → (∀ rest, s.inbox ≠ .resetAssert :: rest) →
    t.diffmem = s.diffmem ∧ t.dcount = s.dcount ∧
    ∀ b : Bank,
      ((∀ addr d rest a, s.inbox = .access addr (.write8 d) :: rest → offsetOf s.params addr = some a → windowOf a ≠ .pbuf b) →
        t.pbuf b = s.pbuf b) ∧
      ((∀ addr d rest, s.inbox = .access addr (.write32 d) :: rest → offsetOf s.params addr ≠ some (regAddress (lenReg b))) →
        t.len b = s.len b)

/-! ### NOP -/

/-- 40_command R103, R104, R106: NOP completes in every state, and changes nothing but BUSY, DONE and PENDING. -/
def Obligations.NopOnlyCompletes : Prop :=
  ∀ s : State, exec .nop s =
    .next { s with status := { s.status with busy := false, done := true }, pending := none }

/-- 40_command R106: NOP's one encoding, what STATUS holds after an accepted NOP, that a word with OP = 0 and A or B set is
ILLEGAL, and the example from reset. -/
def Obligations.AcceptedNopGivesDone : Prop :=
  encode .nop = 0x00000000 ∧
  (∀ s : State, s.rstN = true →
    engineTurn (s.accept 0x00000000) = .next { s with
      pending := none
      status := { busy := false, done := true, errv := false, haz := s.status.haz, err := 0 } }) ∧
  (∀ w : Word, w.extractLsb' 0 4 = 0 → (w.getLsbD 8 = true ∨ w.getLsbD 9 = true) → ∃ e, decode w = .error e) ∧
  (∃ t, engineTurn (State.reset.accept 0x00000000) = .next t ∧ t.status.word = 0x00000002)

/-! ### CONVERT -/

/-- 41_convert R124, R128 (with R120 to R123): with legal operands and the bitmap written, CONVERT a completes; the byte at page p,
column x of PBUF[a] is the closed form, every pixel keeps its place, and LEN[a] = W * ceil8(H). -/
def Obligations.ConvertGivesPageMajorBuffer : Prop :=
  ∀ (a : Bank) (s : State), ConvertLegal s → AllWritten s.src (srcBytes s.W s.H) →
    ∃ t, exec (.convert a) s = .next t ∧
      (∀ p < pages s.H, ∀ x < s.W,
        Memory.read (t.pbuf a) (p * s.W + x) = some (closedByte s.srcByte s.W s.H p x)) ∧
      (∀ x < s.W, ∀ y < s.H, ∃ v, Memory.read (t.pbuf a) (pbufIndex s.W x y) = some v ∧
        bitOf v (y % 8) = sourcePixel s.srcByte s.W x y) ∧
      (t.len a).toNat = s.W * ceil8 s.H ∧
      t.status = s.status.succeeded ∧ t.pending = none

/-- 41_convert R123, R129: what CONVERT leaves unchanged when it gives a next state. It stores at indices `[0, n)` of PBUF[a],
n = W * ceil8(H); every other byte of every memory, and every other register, is as before. -/
def Obligations.ConvertFrame : Prop :=
  ∀ (a : Bank) (s t : State), exec (.convert a) s = .next t →
    (∀ i, ¬ i < outBytes s.W s.H → Memory.read (t.pbuf a) i = Memory.read (s.pbuf a) i) ∧
    (∀ b, b ≠ a → t.pbuf b = s.pbuf b ∧ t.len b = s.len b) ∧
    t.src = s.src ∧ t.diffmem = s.diffmem ∧ t.dcount = s.dcount ∧ t.width = s.width ∧ t.height = s.height ∧
    t.irqen = s.irqen ∧ t.rstN = s.rstN ∧ t.params = s.params ∧ t.draws = s.draws ∧ t.inbox = s.inbox ∧
    t.outbox = s.outbox ∧ t.status.haz = s.status.haz ∧
    (t.status = s.status.succeeded ∨
      (∃ e, t.status = s.status.failed e) ∧ t.pbuf a = s.pbuf a ∧ t.len a = s.len a)

/-- 41_convert R117, 60_exceptions R162: a zero dimension makes CONVERT fail with InvalidDimensions (code 1), before any other
check, with nothing read and nothing written. -/
def Obligations.ConvertZeroDimensionFails : Prop :=
  errorCode .invalidDimensions = 1 ∧
  ∀ (a : Bank) (s : State), s.width = 0 ∨ s.height = 0 →
    exec (.convert a) s = .next (s.failed .invalidDimensions)

/-- 41_convert R118, R119: a bitmap that does not fit SRC, or a buffer that does not fit a bank, makes CONVERT fail with
AllocationFailure (code 3). -/
def Obligations.ConvertTooLargeFails : Prop :=
  errorCode .allocationFailure = 3 ∧
  ∀ (a : Bank) (s : State), s.width ≠ 0 → s.height ≠ 0 →
    (srcBytes s.W s.H > s.params.srcCap ∨ outBytes s.W s.H > s.params.pbufCap) →
    exec (.convert a) s = .next (s.failed .allocationFailure)

/-- 41_convert R135: CONVERT records the fault UninitRead exactly when its checks pass and a byte of the bitmap's rows, padding
bytes included, is unwritten. -/
def Obligations.ConvertFaultsOnUnwrittenSource : Prop :=
  ∀ (a : Bank) (s : State), exec (.convert a) s = .fault .uninitRead ↔
    ConvertLegal s ∧ ∃ i < srcBytes s.W s.H, Memory.read s.src i = none

/-- 41_convert R125, R127: two states whose bitmaps agree pixel by pixel, whatever their padding bits and their bytes beyond
the bitmap, convert to the same buffer. -/
def Obligations.ConvertDependsOnPixelsOnly : Prop :=
  ∀ (a : Bank) (s s' : State), s'.width = s.width → s'.height = s.height → s'.params = s.params →
    ConvertLegal s → AllWritten s.src (srcBytes s.W s.H) → AllWritten s'.src (srcBytes s.W s.H) →
    (∀ x < s.W, ∀ y < s.H, sourcePixel s'.srcByte s.W x y = sourcePixel s.srcByte s.W x y) →
    ∃ t t', exec (.convert a) s = .next t ∧ exec (.convert a) s' = .next t' ∧ t'.len a = t.len a ∧
      ∀ i < outBytes s.W s.H, Memory.read (t'.pbuf a) i = Memory.read (t.pbuf a) i

/-- 41_convert R126: in the last page, bits `H mod 8` to 7 of every byte are 0 when H is not a multiple of 8; H = 20 gives 3
pages. -/
def Obligations.ConvertPartialPageIsZeroFilled : Prop :=
  pages 20 = 3 ∧
  ∀ (a : Bank) (s : State), ConvertLegal s → AllWritten s.src (srcBytes s.W s.H) → s.H % 8 ≠ 0 →
    ∃ t, exec (.convert a) s = .next t ∧
      ∀ x < s.W, ∃ v, Memory.read (t.pbuf a) ((pages s.H - 1) * s.W + x) = some v ∧
        ∀ j, s.H % 8 ≤ j → v.getLsbD j = false

/-- 41_convert R121, R124: the reference function, two stages over a byte list, is the closed form listed page by page. -/
def Obligations.RefConvertIsClosedForm : Prop :=
  ∀ (W H : Nat) (src : List Byte), 0 < W → 0 < H → srcBytes W H ≤ src.length →
    refConvert W H src = .ok ((List.range (pages H)).flatMap fun p =>
      (List.range W).map fun x => closedByte (fun i => src.getD i 0) W H p x)

/-! ### DIFF -/

/-- 42_diff R146 (with R143 to R145): with legal operands and both buffers written, DIFF a, b completes: DIFFMEM entries `[0, k)`
hold the entry words of RefDiff, DCOUNT = k, and nothing else changes but STATUS and PENDING. -/
def Obligations.DiffStoresRefDiff : Prop :=
  ∀ (a b : Bank) (s : State), DiffLegal a b s →
    AllWritten (s.pbuf a) (s.len a).toNat → AllWritten (s.pbuf b) (s.len a).toNat →
    ∃ (es : List DiffEntry) (t : State),
      es = refDiff (Memory.firstBytes (s.pbuf a) (s.len a).toNat) (Memory.firstBytes (s.pbuf b) (s.len a).toNat) ∧
      exec (.diff a b) s = .next t ∧
      t.dcount.toNat = es.length ∧
      (∀ i < es.length, Memory.read t.diffmem i = es[i]?.map entryWord) ∧
      (∀ i, es.length ≤ i → Memory.read t.diffmem i = Memory.read s.diffmem i) ∧
      t = { s with diffmem := t.diffmem, dcount := t.dcount, status := s.status.succeeded, pending := none }

/-- 42_diff R144, R147: RefDiff lists exactly the addresses where the buffers differ, each with the new byte, in strictly rising
order. The buffers are at most 65536 bytes long (00_scope R9). -/
def Obligations.RefDiffListsChangedBytes : Prop :=
  ∀ prev next : List Byte, prev.length = next.length → prev.length ≤ 65536 →
    (∀ e : DiffEntry, e ∈ refDiff prev next ↔
      e.addr.toNat < prev.length ∧ prev[e.addr.toNat]? ≠ next[e.addr.toNat]? ∧
      next[e.addr.toNat]? = some e.value) ∧
    (refDiff prev next).Pairwise fun d e => d.addr < e.addr

/-- 42_diff R151: what DIFF leaves unchanged when it gives a next state. A successful one stores at entries `[0, DCOUNT)` of
DIFFMEM; a failed one writes STATUS only. -/
def Obligations.DiffFrame : Prop :=
  ∀ (a b : Bank) (s t : State), exec (.diff a b) s = .next t →
    t.pbuf0 = s.pbuf0 ∧ t.pbuf1 = s.pbuf1 ∧ t.len0 = s.len0 ∧ t.len1 = s.len1 ∧ t.src = s.src ∧
    t.width = s.width ∧ t.height = s.height ∧ t.irqen = s.irqen ∧ t.rstN = s.rstN ∧ t.params = s.params ∧
    t.draws = s.draws ∧ t.inbox = s.inbox ∧ t.outbox = s.outbox ∧ t.status.haz = s.status.haz ∧
    (t.status = s.status.succeeded ∧
        (∀ i, ¬ i < t.dcount.toNat → Memory.read t.diffmem i = Memory.read s.diffmem i) ∨
      (∃ e, t.status = s.status.failed e) ∧ t.diffmem = s.diffmem ∧ t.dcount = s.dcount)

/-- 60_exceptions R163: buffers of different byte length make DIFF fail with DimensionMismatch (code 2), before any other check,
with no bank byte read. -/
def Obligations.DiffLengthMismatchFails : Prop :=
  errorCode .dimensionMismatch = 2 ∧
  ∀ (a b : Bank) (s : State), s.len a ≠ s.len b → exec (.diff a b) s = .next (s.failed .dimensionMismatch)

/-- 42_diff R142: equal lengths above PBUF_CAP make DIFF fail with AllocationFailure; PBUF_CAP is at most 65536; and CONVERT never
writes a length above PBUF_CAP. -/
def Obligations.DiffTooLongFails : Prop :=
  (∀ (a b : Bank) (s : State), s.len a = s.len b →
    ((s.len a).toNat > s.params.pbufCap → exec (.diff a b) s = .next (s.failed .allocationFailure))) ∧
  (∀ p : Params, p.pbufCap ≤ 65536) ∧
  (∀ (a : Bank) (s t : State), exec (.convert a) s = .next t → t.len a ≠ s.len a →
    (t.len a).toNat ≤ s.params.pbufCap)

/-- 42_diff R159: DIFF records the fault UninitRead exactly when its checks pass and a byte the scan reads is unwritten. -/
def Obligations.DiffFaultsOnUnwrittenBank : Prop :=
  ∀ (a b : Bank) (s : State), exec (.diff a b) s = .fault .uninitRead ↔
    DiffLegal a b s ∧
    ∃ i < (s.len a).toNat, Memory.read (s.pbuf a) i = none ∨ Memory.read (s.pbuf b) i = none

/-- 42_diff R148, R149: equal contents, and in particular a bank compared with itself, give DCOUNT = 0, and DIFFMEM is not
written. -/
def Obligations.DiffOfEqualBuffersIsEmpty : Prop :=
  encode (.diff .bank0 .bank0) = 0x00000002 ∧ encode (.diff .bank1 .bank1) = 0x00000302 ∧
  ∀ (a b : Bank) (s : State), DiffLegal a b s → AllWritten (s.pbuf a) (s.len a).toNat →
    (∀ i < (s.len a).toNat, Memory.read (s.pbuf b) i = Memory.read (s.pbuf a) i) →
    exec (.diff a b) s = .next { s with dcount := 0, status := s.status.succeeded, pending := none }

/-- 42_diff R150: DIFF of zero-length buffers, the reset lengths, succeeds, reads nothing and gives DCOUNT = 0; a CONVERT output
is never empty. -/
def Obligations.DiffOfZeroLengthSucceeds : Prop :=
  (∀ (a b : Bank) (s : State), s.len a = 0 → s.len b = 0 →
    exec (.diff a b) s = .next { s with dcount := 0, status := s.status.succeeded, pending := none }) ∧
  (∀ b, State.reset.len b = 0) ∧
  (∀ s : State, ConvertLegal s → 0 < outBytes s.W s.H)

/-- 42_diff R153: applying the stored FrameDiff, in order, onto a copy of `prev` gives `next`. -/
def Obligations.DiffRoundTrip : Prop :=
  ∀ (a b : Bank) (s : State), DiffLegal a b s →
    AllWritten (s.pbuf a) (s.len a).toNat → AllWritten (s.pbuf b) (s.len a).toNat →
    ∃ t, exec (.diff a b) s = .next t ∧
      applyDiff (Memory.firstBytes (s.pbuf a) (s.len a).toNat) (Memory.firstEntries t.diffmem t.dcount.toNat) =
        Memory.firstBytes (s.pbuf b) (s.len a).toNat

/-- 42_diff R154: applying a FrameDiff twice is applying it once, for every d. What an entry at or beyond the end of buf does the
spec does not say; the law holds with the model's choice that it writes nothing (notes/assumptions/18.md). -/
def Obligations.ApplyDiffIsIdempotent : Prop :=
  ∀ (buf : List Byte) (d : List DiffEntry), applyDiff (applyDiff buf d) d = applyDiff buf d

/-- 42_diff R157: the bound on DCOUNT, when it is reached, the range of the addresses, and that a value may be 0. -/
def Obligations.DiffCountIsBounded : Prop :=
  (∀ (a b : Bank) (s : State), DiffLegal a b s →
    AllWritten (s.pbuf a) (s.len a).toNat → AllWritten (s.pbuf b) (s.len a).toNat →
    ∃ t, exec (.diff a b) s = .next t ∧ t.dcount.toNat ≤ (s.len a).toNat ∧ (s.len a).toNat ≤ s.params.pbufCap ∧
      (t.dcount.toNat = (s.len a).toNat ↔
        ∀ i < (s.len a).toNat, Memory.read (s.pbuf a) i ≠ Memory.read (s.pbuf b) i) ∧
      ∀ i < t.dcount.toNat, ∃ w, Memory.read t.diffmem i = some w ∧
        (entryOf w).addr.toNat < (s.len a).toNat) ∧
  refDiff [0x20] [0x00] = [{ addr := 0, value := 0x00 }]

/-- 20_memory R67, 42_diff R155: the entry word holds the address in bits [15:0], the value in bits [23:16], and 0 above; and the
consumer's decode of an address with the frames' width. -/
def Obligations.EntryWordAndItsPosition : Prop :=
  (∀ e : DiffEntry, (entryWord e).extractLsb' 0 16 = e.addr ∧ (entryWord e).extractLsb' 16 8 = e.value ∧
    (entryWord e).extractLsb' 24 8 = 0 ∧ entryOf (entryWord e) = e) ∧
  entryWord { addr := 3, value := 0x20 } = 0x00200003 ∧
  (∀ W p x : Nat, x < W → displayPosition W (p * W + x) = (p, x)) ∧ displayPosition 84 90 = (1, 6)

/-! ### Registers, status and interrupt -/

/-- 10_state R32: STATUS as the host reads it, bit by bit, and what a host write of d does to each field. -/
def Obligations.StatusFields : Prop :=
  ∀ (s : State) (d : Word),
    (∃ v : Word, hostAccess (regAddress .status) .read32 s = (.data32 v, s) ∧
      v.getLsbD 0 = s.status.busy ∧ v.getLsbD 1 = s.status.done ∧ v.getLsbD 2 = s.status.errv ∧
      v.getLsbD 3 = s.status.haz ∧ v.extractLsb' 4 4 = s.status.err ∧ v.extractLsb' 8 24 = 0) ∧
    hostAccess (regAddress .status) (.write32 d) s =
      (.ack, { s with status :=
        { busy := s.status.busy
          done := if d.getLsbD 1 then false else s.status.done
          errv := if d.getLsbD 2 then false else s.status.errv
          haz := if d.getLsbD 3 then false else s.status.haz
          err := if d.getLsbD 2 then 0 else s.status.err } })

/-- 10_state R43: irq, at every moment. -/
def Obligations.IrqIsTheEnabledOr : Prop :=
  ∀ s : State, s.irq = true ↔
    (s.status.done = true ∧ s.irqen.getLsbD 0 = true) ∨ (s.status.errv = true ∧ s.irqen.getLsbD 1 = true) ∨
    (s.status.haz = true ∧ s.irqen.getLsbD 2 = true)

/-- 10_state R28, R29, R30: what ID, SRCCAP and PBUFCAP read, and that writes to them are ignored. -/
def Obligations.ConstantRegisters : Prop :=
  ∀ (s : State) (d : Word),
    hostAccess (regAddress .id) .read32 s = (.data32 0x58424E01, s) ∧
    (∃ v : Word, hostAccess (regAddress .srccap) .read32 s = (.data32 v, s) ∧
      (v.extractLsb' 0 17).toNat = s.params.srcCap ∧ v.extractLsb' 17 15 = 0) ∧
    (∃ v : Word, hostAccess (regAddress .pbufcap) .read32 s = (.data32 v, s) ∧
      (v.extractLsb' 0 17).toNat = s.params.pbufCap ∧ v.extractLsb' 17 15 = 0) ∧
    (∀ r, r = .id ∨ r = .srccap ∨ r = .pbufcap → hostAccess (regAddress r) (.write32 d) s = (.ack, s))

/-- 10_state R26, R31, R38 to R42 with R27: what each of these registers reads, busy or not; while idle, a write to a RW register
replaces exactly the field that the commands read, by its field bits, and reads back with the reserved bits 0; DCOUNT ignores
writes, busy or not. -/
def Obligations.RegistersReadBackTheirFields : Prop :=
  ∀ (s : State) (d : Word),
    (hostAccess (regAddress .cmd) .read32 s = (.data32 0, s) ∧
      hostAccess (regAddress .width) .read32 s = (.data32 (s.width.setWidth 32), s) ∧
      hostAccess (regAddress .height) .read32 s = (.data32 (s.height.setWidth 32), s) ∧
      hostAccess (regAddress .len0) .read32 s = (.data32 (s.len0.setWidth 32), s) ∧
      hostAccess (regAddress .len1) .read32 s = (.data32 (s.len1.setWidth 32), s) ∧
      hostAccess (regAddress .dcount) .read32 s = (.data32 (s.dcount.setWidth 32), s) ∧
      hostAccess (regAddress .irqen) .read32 s = (.data32 (s.irqen.setWidth 32), s)) ∧
    hostAccess (regAddress .dcount) (.write32 d) s = (.ack, s) ∧
    (s.status.busy = false →
      hostAccess (regAddress .width) (.write32 d) s = (.ack, { s with width := d.extractLsb' 0 16 }) ∧
      hostAccess (regAddress .height) (.write32 d) s = (.ack, { s with height := d.extractLsb' 0 16 }) ∧
      hostAccess (regAddress .len0) (.write32 d) s = (.ack, { s with len0 := d.extractLsb' 0 17 }) ∧
      hostAccess (regAddress .len1) (.write32 d) s = (.ack, { s with len1 := d.extractLsb' 0 17 }) ∧
      hostAccess (regAddress .irqen) (.write32 d) s = (.ack, { s with irqen := d.extractLsb' 0 3 }) ∧
      ∀ r m, (r, m) ∈ [(Reg.width, (0xFFFF : Word)), (.height, 0xFFFF), (.len0, 0x1FFFF), (.len1, 0x1FFFF), (.irqen, 7)] →
        ∃ t, hostAccess (regAddress r) (.write32 d) s = (.ack, t) ∧
          hostAccess (regAddress r) .read32 t = (.data32 (d &&& m), t))

/-- 10_state R27: a reserved offset of the REG window reads 0 and ignores writes, busy or not. -/
def Obligations.ReservedOffsetsReadZero : Prop :=
  ∀ (s : State) (a : BitVec 19) (d : Word), a.toNat % 4 = 0 → a.toNat < 0x10000 →
    (a.toNat = 0x00C ∨ 0x030 ≤ a.toNat) →
    hostAccess a .read32 s = (.data32 0, s) ∧ hostAccess a (.write32 d) s = (.ack, s)

/-! ### Host transactions -/

/-- 20_memory R61: the window and the index of an offset. -/
def Obligations.WindowOfEveryOffset : Prop :=
  ∀ a : BitVec 19,
    (a.toNat < 0x10000 → windowOf a = .reg ∧ byteIndex a = a.toNat) ∧
    (0x10000 ≤ a.toNat → a.toNat < 0x20000 → windowOf a = .src ∧ byteIndex a = a.toNat - 0x10000) ∧
    (0x20000 ≤ a.toNat → a.toNat < 0x30000 → windowOf a = .pbuf .bank0 ∧ byteIndex a = a.toNat - 0x20000) ∧
    (0x30000 ≤ a.toNat → a.toNat < 0x40000 → windowOf a = .pbuf .bank1 ∧ byteIndex a = a.toNat - 0x30000) ∧
    (0x40000 ≤ a.toNat → windowOf a = .diff ∧ entryIndex a = (a.toNat - 0x40000) / 4)

/-- 20_memory R62, R63: a transaction gets a bus error exactly when its window does not accept its size and alignment, whatever
BUSY is, and a bus error changes no state. -/
def Obligations.BusErrorsChangeNothing : Prop :=
  ∀ (a : BitVec 19) (acc : Access) (s : State),
    (sizeAccepted a acc = false → hostAccess a acc s = (.busError, s)) ∧
    (sizeAccepted a acc = true → (hostAccess a acc s).1 ≠ .busError) ∧
    (a.toNat < 0x10000 ∨ 0x40000 ≤ a.toNat →
      (sizeAccepted a acc = true ↔ a.toNat % 4 = 0 ∧ (acc = .read32 ∨ ∃ d, acc = .write32 d))) ∧
    (0x10000 ≤ a.toNat → a.toNat < 0x40000 → (sizeAccepted a acc = true ↔ acc = .read8 ∨ ∃ d, acc = .write8 d))

/-- 20_memory R68: host access to SRC while idle. -/
def Obligations.SrcHostAccess : Prop :=
  ∀ (s : State) (a : BitVec 19) (d : Byte), s.status.busy = false → windowOf a = .src →
    (byteIndex a < s.params.srcCap →
      (∃ t, hostAccess a (.write8 d) s = (.ack, t) ∧ t = { s with src := t.src } ∧
        Memory.read t.src (byteIndex a) = some d ∧
        (∀ i, i ≠ byteIndex a → Memory.read t.src i = Memory.read s.src i) ∧
        hostAccess a .read8 t = (.data8 d, t)) ∧
      (∀ v, Memory.read s.src (byteIndex a) = some v → hostAccess a .read8 s = (.data8 v, s)) ∧
      (Memory.read s.src (byteIndex a) = none →
        ∃ v, hostAccess a .read8 s = (.data8 v, { s with draws := s.draws + 1 }))) ∧
    (s.params.srcCap ≤ byteIndex a →
      hostAccess a .read8 s = (.data8 0, s) ∧ hostAccess a (.write8 d) s = (.ack, s))

/-- 20_memory R69: host access to a bank while idle; LEN[b] does not change. -/
def Obligations.BankHostAccess : Prop :=
  ∀ (s : State) (b : Bank) (a : BitVec 19) (d : Byte), s.status.busy = false → windowOf a = .pbuf b →
    (byteIndex a < s.params.pbufCap →
      (∃ t, hostAccess a (.write8 d) s = (.ack, t) ∧ t = s.setPbuf b (t.pbuf b) ∧
        Memory.read (t.pbuf b) (byteIndex a) = some d ∧
        (∀ i, i ≠ byteIndex a → Memory.read (t.pbuf b) i = Memory.read (s.pbuf b) i) ∧
        t.len b = s.len b ∧ hostAccess a .read8 t = (.data8 d, t)) ∧
      (∀ v, Memory.read (s.pbuf b) (byteIndex a) = some v → hostAccess a .read8 s = (.data8 v, s)) ∧
      (Memory.read (s.pbuf b) (byteIndex a) = none →
        ∃ v, hostAccess a .read8 s = (.data8 v, { s with draws := s.draws + 1 }))) ∧
    (s.params.pbufCap ≤ byteIndex a →
      hostAccess a .read8 s = (.data8 0, s) ∧ hostAccess a (.write8 d) s = (.ack, s))

/-- 20_memory R70: host access to the DIFF window while idle; DIFFMEM is read-only to the host. -/
def Obligations.DiffWindowHostAccess : Prop :=
  ∀ (s : State) (a : BitVec 19) (d : Word), s.status.busy = false → windowOf a = .diff → a.toNat % 4 = 0 →
    (entryIndex a < s.params.pbufCap →
      (∀ w, Memory.read s.diffmem (entryIndex a) = some w → hostAccess a .read32 s = (.data32 w, s)) ∧
      (Memory.read s.diffmem (entryIndex a) = none →
        ∃ w, hostAccess a .read32 s = (.data32 w, { s with draws := s.draws + 1 }))) ∧
    (s.params.pbufCap ≤ entryIndex a → hostAccess a .read32 s = (.data32 0, s)) ∧
    hostAccess a (.write32 d) s = (.ack, s)

/-- 20_memory R71: while BUSY = 0 a read changes nothing but the model's count of draws. -/
def Obligations.IdleReadsHaveNoSideEffect : Prop :=
  ∀ (s : State) (a : BitVec 19) (acc : Access), s.status.busy = false → acc = .read8 ∨ acc = .read32 →
    ∃ n, (hostAccess a acc s).2 = { s with draws := n }

/-- 70_reset R200: the busy-access table, row by row. -/
def Obligations.BusyAccessTable : Prop :=
  ∀ s : State, s.status.busy = true →
    (∀ r, hostAccess (regAddress r) .read32 s = (.data32 (regValue s r), s)) ∧
    (∀ a : BitVec 19, a.toNat % 4 = 0 → a.toNat < 0x10000 → (∀ r, a ≠ regAddress r) → ∀ d,
      hostAccess a .read32 s = (.data32 0, s) ∧ hostAccess a (.write32 d) s = (.ack, s)) ∧
    (∀ d, hostAccess (regAddress .status) (.write32 d) s =
      (.ack, { s with status := s.status.writeOneToClear d })) ∧
    (∀ d, hostAccess (regAddress .irqen) (.write32 d) s = (.ack, { s with irqen := d.extractLsb' 0 3 })) ∧
    (∀ r d, r = .id ∨ r = .srccap ∨ r = .pbufcap ∨ r = .dcount →
      hostAccess (regAddress r) (.write32 d) s = (.ack, s)) ∧
    (∀ r d, r = .cmd ∨ r = .width ∨ r = .height ∨ r = .len0 ∨ r = .len1 →
      hostAccess (regAddress r) (.write32 d) s = (.ack, s.setHaz)) ∧
    (∀ a : BitVec 19, 0x10000 ≤ a.toNat → a.toNat < 0x40000 → ∀ d,
      (∃ v, hostAccess a .read8 s = (.data8 v, { s.setHaz with draws := s.draws + 1 })) ∧
      hostAccess a (.write8 d) s = (.ack, s.setHaz)) ∧
    (∀ a : BitVec 19, 0x40000 ≤ a.toNat → a.toNat % 4 = 0 → ∀ d,
      (∃ v, hostAccess a .read32 s = (.data32 v, { s.setHaz with draws := s.draws + 1 })) ∧
      hostAccess a (.write32 d) s = (.ack, s.setHaz)) ∧
    (∀ a acc, sizeAccepted a acc = false → hostAccess a acc s = (.busError, s))

/-- 20_memory R60, R71, R74, 10_state R23: a transaction that comes next, at an address of the XBN and out of reset, is served: the
step is the access at its offset, and its answer is given. The addresses of `[BASE, BASE + 0x80000)` are the XBN's offsets in
order, and no others are decoded; a transaction outside has no effect on the XBN (R78; its record is notes/assumptions/9.md). -/
def Obligations.PlatformAddressDecode : Prop :=
  (∀ (p : Params) (addr : Nat),
    (∀ off, off < 0x80000 → offsetOf p (p.base + off) = some (BitVec.ofNat 19 off)) ∧
    (addr < p.base ∨ p.base + 0x80000 ≤ addr → offsetOf p addr = none)) ∧
  (∀ (s : State) (addr : Nat) (acc : Access) (rest : List Event), s.inbox = .access addr acc :: rest →
    (∀ a, s.rstN = true → offsetOf s.params addr = some a →
      step s = .next (answer (hostAccess a acc { s with inbox := rest }))) ∧
    (offsetOf s.params addr = none →
      step s = .next { s with inbox := rest, outbox := s.outbox ++ [.noAnswer] })) ∧
  (∀ (r : Response) (t : State), answer (r, t) = { t with outbox := t.outbox ++ [r] })

/-- 30_encoding R90, R91: the transaction of every operation of the host notation, the jumps of the host-local ones, what becomes
of `v`, and the expansion of every pseudo-instruction. Indices without a bound and the 32 bits of `v` are the model's
(notes/assumptions/19.md, 20.md). -/
def Obligations.HostNotationTransactions : Prop :=
  ((∀ r imm, hostTransaction (.wr32 r imm) = some (regOffset r, .write32 imm)) ∧
    (∀ r, hostTransaction (.rd32 r) = some (regOffset r, .read32)) ∧
    (∀ i imm, hostTransaction (.wr8 .src i imm) = some (0x10000 + i, .write8 imm) ∧
      hostTransaction (.wr8 (.pbuf .bank0) i imm) = some (0x20000 + i, .write8 imm) ∧
      hostTransaction (.wr8 (.pbuf .bank1) i imm) = some (0x30000 + i, .write8 imm)) ∧
    (∀ i, hostTransaction (.rd8 .src i) = some (0x10000 + i, .read8) ∧
      hostTransaction (.rd8 (.pbuf .bank0) i) = some (0x20000 + i, .read8) ∧
      hostTransaction (.rd8 (.pbuf .bank1) i) = some (0x30000 + i, .read8)) ∧
    (∀ i, hostTransaction (.rd32Diff i) = some (0x40000 + 4 * i, .read32))) ∧
  (∀ (op : HostOp) (h : HostVars) (s : State) (off : Nat) (acc : Access),
    hostTransaction op = some (off, acc) → off < 0x80000 →
      ((∀ x t, hostAccess (BitVec.ofNat 19 off) acc s = (.data8 x, t) →
        hostOp op h s = some ({ position := h.position + 1, v := x.setWidth 32 }, answer (.data8 x, t))) ∧
      (∀ x t, hostAccess (BitVec.ofNat 19 off) acc s = (.data32 x, t) →
        hostOp op h s = some ({ position := h.position + 1, v := x }, answer (.data32 x, t))) ∧
      (∀ t, hostAccess (BitVec.ofNat 19 off) acc s = (.ack, t) →
        hostOp op h s = some ({ h with position := h.position + 1 }, answer (.ack, t))))) ∧
  (∀ (h : HostVars) (s : State) (n l : Nat),
    hostOp (.bclr n l) h s = some ({ h with position := if h.v.getLsbD n then h.position + 1 else l }, s) ∧
    hostOp (.bset n l) h s = some ({ h with position := if h.v.getLsbD n then l else h.position + 1 }, s)) ∧
  (∀ i, cmd i = .wr32 .cmd (encode i)) ∧
  (∀ a, encode (.convert a) = 0x00000001 ||| (if bitOfBank a then 1 else 0) <<< 8) ∧
  (∀ a b, encode (.diff a b) =
    0x00000002 ||| (if bitOfBank a then 1 else 0) <<< 8 ||| (if bitOfBank b then 1 else 0) <<< 9) ∧
  clrstat = .wr32 .status 0x0000000E ∧
  (∀ l, wait l = [.rd32 .status, .bclr 1 l]) ∧
  (∀ w lo hi imm, (fill w lo hi imm).length = hi - lo ∧
    ∀ k < hi - lo, (fill w lo hi imm)[k]? = some (.wr8 w (lo + k) imm))

/-! ### Reset -/

/-- 70_reset R191, with the table of 10_state R51: what reset leaves, in `State.reset` and in every state a release of `rst_n` gives.
The reference configuration and the values of the model's own fields are no part of this statement. -/
def Obligations.ResetState : Prop :=
  ∀ s : State, s = State.reset ∨ (∃ t, s = { State.enterReset t with rstN := true }) →
    regValue s .id = 0x58424E01 ∧ (regValue s .srccap).toNat = s.params.srcCap ∧
    (regValue s .pbufcap).toNat = s.params.pbufCap ∧
    s.status = { busy := false, done := false, errv := false, haz := false, err := 0 } ∧ s.status.word = 0 ∧
    s.width = 0 ∧ s.height = 0 ∧ s.len0 = 0 ∧ s.len1 = 0 ∧ s.dcount = 0 ∧ s.irqen = 0 ∧ s.irq = false ∧
    s.pending = none ∧
    ∀ i, Memory.read s.src i = none ∧ Memory.read s.pbuf0 i = none ∧ Memory.read s.pbuf1 i = none ∧
      Memory.read s.diffmem i = none

/-- 70_reset R190, R192: reset from any state, a running command included, abandons the command and gives the reset state at
once; while `rst_n` is low no transaction is answered, no command starts and irq = 0; release starts from there. -/
def Obligations.ResetAbandonsEverything : Prop :=
  (∀ (s : State) (rest : List Event), s.inbox = .resetAssert :: rest →
    step s = .next { State.reset with
      rstN := false, params := s.params, draws := s.draws, inbox := rest, outbox := s.outbox }) ∧
  (∀ s : State, s.enterReset.irq = false) ∧
  (∀ (s : State) (rest : List Event), s.rstN = false →
    (∀ addr acc, s.inbox = .access addr acc :: rest →
      step s = .next { s with inbox := rest, outbox := s.outbox ++ [.noAnswer] }) ∧
    (s.inbox = .engineTurn :: rest → step s = .next { s with inbox := rest }) ∧
    (s.inbox = [] → step s = .next s) ∧
    (s.inbox = .resetRelease :: rest → step s = .next { s with inbox := rest, rstN := true }))

/-! ### Invariants -/

/-- Every step keeps every memory in canonical form and within its capacity (10_state R44 to R46, 20_memory R72). -/
def Obligations.StepKeepsMemoriesCanonical : Prop :=
  ∀ s t : State, MemoriesCanonical s → step s = .next t → MemoriesCanonical t

/-- Every step keeps BUSY, PENDING, DONE and ERRV consistent (10_state R33, R34, R35, R49; 40_command R105). -/
def Obligations.StepKeepsLifecycleConsistent : Prop :=
  ∀ s t : State, LifecycleConsistent s → step s = .next t → LifecycleConsistent t

/-- Every step keeps ERR a legal code: 1 to 4 while ERRV = 1, and 0 while ERRV = 0 (10_state R37). -/
def Obligations.StepKeepsErrorCodeLegal : Prop :=
  ∀ s t : State, ErrorCodeLegal s → step s = .next t → ErrorCodeLegal t

/-- Every step keeps DIFFMEM's first DCOUNT entries a FrameDiff in strictly rising address order (42_diff R147, R157). -/
def Obligations.StepKeepsFrameDiffStored : Prop :=
  ∀ s t : State, FrameDiffStored s → step s = .next t → FrameDiffStored t

/-- Every step keeps the state at its reset values while `rst_n` is low (70_reset R190, R191). -/
def Obligations.StepKeepsQuietInReset : Prop :=
  ∀ s t : State, QuietInReset s → step s = .next t → QuietInReset t

/-- The invariants hold at reset; and the machine idles there. That it idles is 70_reset R193 with the model's choice that the
reset state lists no event to come (notes/assumptions/3.md). -/
def Obligations.ResetMeetsInvariants : Prop :=
  MemoriesCanonical State.reset ∧ LifecycleConsistent State.reset ∧ ErrorCodeLegal State.reset ∧
  FrameDiffStored State.reset ∧ QuietInReset State.reset ∧ step State.reset = .next State.reset
end

