-- ==== Sys2Proof/Laws/Memory.lean ====
section
/-! SUPPORT. The laws of the memories: a read after a write, and that every memory operation keeps the canonical form and the bound. -/

namespace Sys2Proof.Machine

variable {w : Nat}

@[simp] theorem Memory.read_nil (i : Nat) : Memory.read ([] : Memory w) i = none := rfl

/-- A read after a write at the same index gives the value written. -/
@[simp] theorem Memory.read_write_same (m : Memory w) (i : Nat) (v : BitVec w) :
    Memory.read (Memory.write m i v) i = some v := by
  induction m with
  | nil => simp [Memory.write, Memory.read]
  | cons c m ih =>
    obtain ⟨j, u⟩ := c
    rcases lt_trichotomy i j with h | h | h
    · simp [Memory.write, Memory.read, h]
    · simp [Memory.write, Memory.read, h]
    · simp [Memory.write, Memory.read, Nat.not_lt_of_gt h, Nat.ne_of_gt h, ih]

/-- A write leaves every other index alone. -/
theorem Memory.read_write_other (m : Memory w) {i k : Nat} (h : k ≠ i) (v : BitVec w) :
    Memory.read (Memory.write m i v) k = Memory.read m k := by
  induction m with
  | nil => simp [Memory.write, Memory.read, h]
  | cons c m ih =>
    obtain ⟨j, u⟩ := c
    rcases lt_trichotomy i j with h' | h' | h'
    · simp [Memory.write, Memory.read, h', h]
    · subst h'
      simp [Memory.write, Memory.read, h]
    · simp only [Memory.write, Nat.not_lt_of_gt h', Nat.ne_of_gt h', if_false, Memory.read]
      split
      · rfl
      · exact ih

/-- Both together: what an index reads as after a write. -/
theorem Memory.read_write (m : Memory w) (i k : Nat) (v : BitVec w) :
    Memory.read (Memory.write m i v) k = if k = i then some v else Memory.read m k := by
  split
  · next h => simp [h]
  · next h => exact Memory.read_write_other m h v

theorem Memory.risesAbove_write (m : Memory w) {lo i : Nat} (hlo : lo < i) (v : BitVec w)
    (h : Memory.risesAbove lo m = true) : Memory.risesAbove lo (Memory.write m i v) = true := by
  induction m generalizing lo with
  | nil => simp [Memory.write, Memory.risesAbove, hlo]
  | cons c m ih =>
    obtain ⟨j, u⟩ := c
    simp only [Memory.risesAbove, Bool.and_eq_true, decide_eq_true_eq] at h
    rcases lt_trichotomy i j with h' | h' | h'
    · simp [Memory.write, Memory.risesAbove, h', hlo, h.2]
    · subst h'
      simp [Memory.write, Memory.risesAbove, hlo, h.2]
    · simp [Memory.write, Nat.not_lt_of_gt h', Nat.ne_of_gt h', Memory.risesAbove, h.1, ih h' h.2]

/-- A write keeps the canonical form. -/
theorem Memory.wf_write (m : Memory w) (i : Nat) (v : BitVec w) (h : Memory.wf m = true) :
    Memory.wf (Memory.write m i v) = true := by
  cases m with
  | nil => simp [Memory.write, Memory.wf, Memory.risesAbove]
  | cons c m =>
    obtain ⟨j, u⟩ := c
    simp only [Memory.wf] at h
    rcases lt_trichotomy i j with h' | h' | h'
    · simp [Memory.write, h', Memory.wf, Memory.risesAbove, h]
    · subst h'
      simpa [Memory.write, Memory.wf] using h
    · simpa [Memory.write, Nat.not_lt_of_gt h', Nat.ne_of_gt h', Memory.wf] using
        Memory.risesAbove_write m h' v h

/-- A write below the capacity keeps every listed index below it. -/
theorem Memory.within_write (m : Memory w) {cap i : Nat} (hi : i < cap) (v : BitVec w)
    (h : Memory.within cap m = true) : Memory.within cap (Memory.write m i v) = true := by
  induction m with
  | nil => simp [Memory.write, Memory.within, hi]
  | cons c m ih =>
    obtain ⟨j, u⟩ := c
    simp only [Memory.within, List.all_cons, Bool.and_eq_true, decide_eq_true_eq] at h ih ⊢
    rcases lt_trichotomy i j with h' | h' | h'
    · simp [Memory.write, h', hi, h.1]
      simpa using h.2
    · subst h'
      simp [Memory.write, hi]
      simpa using h.2
    · simp only [Memory.write, Nat.not_lt_of_gt h', Nat.ne_of_gt h', if_false, List.all_cons, Bool.and_eq_true,
        decide_eq_true_eq]
      exact ⟨h.1, ih h.2⟩

/-- A list of bytes laid out from index i on reads back byte by byte. -/
theorem Memory.read_ofListFrom (vs : List (BitVec w)) (i k : Nat) :
    Memory.read (Memory.ofListFrom i vs) k = if i ≤ k then vs[k - i]? else none := by
  induction vs generalizing i with
  | nil => simp [Memory.ofListFrom]
  | cons v vs ih =>
    simp only [Memory.ofListFrom, Memory.read, ih]
    rcases lt_trichotomy k i with h | h | h
    · simp [Nat.ne_of_lt h, Nat.not_le_of_gt h, Nat.not_le_of_gt (Nat.lt_succ_of_lt h)]
    · simp [h]
    · have : k - i = (k - (i + 1)) + 1 := by omega
      simp [Nat.ne_of_gt h, Nat.le_of_lt h, h, this]

theorem engineRead_eq_ok {m : Memory w} {i : Nat} {v : BitVec w} :
    engineRead m i = .ok v ↔ Memory.read m i = some v := by
  unfold engineRead
  split <;> simp_all

theorem engineRead_eq_error {m : Memory w} {i : Nat} {e : Fault} :
    engineRead m i = .error e ↔ Memory.read m i = none := by
  cases e
  unfold engineRead
  split <;> simp_all

/-! ### Loops -/

@[simp] theorem loop_zero {σ : Type} (f : σ → Nat → Except Fault σ) (s : σ) : loop f s 0 = .ok s := rfl

/-- The last turn of a loop. -/
theorem loop_succ {σ : Type} (f : σ → Nat → Except Fault σ) (s : σ) (n : Nat) :
    loop f s (n + 1) = match loop f s n with
      | .ok s' => f s' n
      | .error e => .error e := rfl

/-- A loop's result satisfies what holds at its start and every turn keeps. -/
theorem loop_invariant {σ : Type} {f : σ → Nat → Except Fault σ} {s t : σ} {n : Nat} (P : Nat → σ → Prop)
    (start : P 0 s) (turn : ∀ k u v, k < n → P k u → f u k = .ok v → P (k + 1) v) (h : loop f s n = .ok t) :
    P n t := by
  induction n generalizing t with
  | zero =>
    simp only [loop_zero, Except.ok.injEq] at h
    exact h ▸ start
  | succ n ih =>
    rw [loop_succ] at h
    split at h
    · next u hu => exact turn n u t (Nat.lt_succ_self n) (ih (fun k u v hk => turn k u v (Nat.lt_succ_of_lt hk)) hu) h
    · exact absurd h (by simp)

/-- A loop completes if every turn from a state that meets the invariant completes. -/
theorem loop_completes {σ : Type} {f : σ → Nat → Except Fault σ} {s : σ} {n : Nat} (P : Nat → σ → Prop)
    (start : P 0 s) (turn : ∀ k u, k < n → P k u → ∃ v, f u k = .ok v ∧ P (k + 1) v) :
    ∃ t, loop f s n = .ok t ∧ P n t := by
  induction n with
  | zero => exact ⟨s, rfl, start⟩
  | succ n ih =>
    obtain ⟨u, hu, hp⟩ := ih fun k u hk => turn k u (Nat.lt_succ_of_lt hk)
    obtain ⟨v, hv, hq⟩ := turn n u (Nat.lt_succ_self n) hp
    exact ⟨v, by rw [loop_succ, hu]; exact hv, hq⟩

end Sys2Proof.Machine
end

