-- ==== Sys2Proof/Laws/State.lean ====
section
/-! SUPPORT. One lemma per field per update of State, so that no proof unfolds a record update. -/

namespace Sys2Proof.Machine

/-! ### State.accept -/

@[simp] theorem State.accept_status (s : State) (w : Word) : (s.accept w).status = { s.status with busy := true, done := false, errv := false, err := 0 } := rfl
@[simp] theorem State.accept_width (s : State) (w : Word) : (s.accept w).width = s.width := rfl
@[simp] theorem State.accept_height (s : State) (w : Word) : (s.accept w).height = s.height := rfl
@[simp] theorem State.accept_len0 (s : State) (w : Word) : (s.accept w).len0 = s.len0 := rfl
@[simp] theorem State.accept_len1 (s : State) (w : Word) : (s.accept w).len1 = s.len1 := rfl
@[simp] theorem State.accept_dcount (s : State) (w : Word) : (s.accept w).dcount = s.dcount := rfl
@[simp] theorem State.accept_irqen (s : State) (w : Word) : (s.accept w).irqen = s.irqen := rfl
@[simp] theorem State.accept_pending (s : State) (w : Word) : (s.accept w).pending = some w := rfl
@[simp] theorem State.accept_src (s : State) (w : Word) : (s.accept w).src = s.src := rfl
@[simp] theorem State.accept_pbuf0 (s : State) (w : Word) : (s.accept w).pbuf0 = s.pbuf0 := rfl
@[simp] theorem State.accept_pbuf1 (s : State) (w : Word) : (s.accept w).pbuf1 = s.pbuf1 := rfl
@[simp] theorem State.accept_diffmem (s : State) (w : Word) : (s.accept w).diffmem = s.diffmem := rfl
@[simp] theorem State.accept_rstN (s : State) (w : Word) : (s.accept w).rstN = s.rstN := rfl
@[simp] theorem State.accept_params (s : State) (w : Word) : (s.accept w).params = s.params := rfl
@[simp] theorem State.accept_draws (s : State) (w : Word) : (s.accept w).draws = s.draws := rfl
@[simp] theorem State.accept_inbox (s : State) (w : Word) : (s.accept w).inbox = s.inbox := rfl
@[simp] theorem State.accept_outbox (s : State) (w : Word) : (s.accept w).outbox = s.outbox := rfl

/-! ### State.setHaz -/

@[simp] theorem State.setHaz_status (s : State) : (s.setHaz).status = { s.status with haz := true } := rfl
@[simp] theorem State.setHaz_width (s : State) : (s.setHaz).width = s.width := rfl
@[simp] theorem State.setHaz_height (s : State) : (s.setHaz).height = s.height := rfl
@[simp] theorem State.setHaz_len0 (s : State) : (s.setHaz).len0 = s.len0 := rfl
@[simp] theorem State.setHaz_len1 (s : State) : (s.setHaz).len1 = s.len1 := rfl
@[simp] theorem State.setHaz_dcount (s : State) : (s.setHaz).dcount = s.dcount := rfl
@[simp] theorem State.setHaz_irqen (s : State) : (s.setHaz).irqen = s.irqen := rfl
@[simp] theorem State.setHaz_pending (s : State) : (s.setHaz).pending = s.pending := rfl
@[simp] theorem State.setHaz_src (s : State) : (s.setHaz).src = s.src := rfl
@[simp] theorem State.setHaz_pbuf0 (s : State) : (s.setHaz).pbuf0 = s.pbuf0 := rfl
@[simp] theorem State.setHaz_pbuf1 (s : State) : (s.setHaz).pbuf1 = s.pbuf1 := rfl
@[simp] theorem State.setHaz_diffmem (s : State) : (s.setHaz).diffmem = s.diffmem := rfl
@[simp] theorem State.setHaz_rstN (s : State) : (s.setHaz).rstN = s.rstN := rfl
@[simp] theorem State.setHaz_params (s : State) : (s.setHaz).params = s.params := rfl
@[simp] theorem State.setHaz_draws (s : State) : (s.setHaz).draws = s.draws := rfl
@[simp] theorem State.setHaz_inbox (s : State) : (s.setHaz).inbox = s.inbox := rfl
@[simp] theorem State.setHaz_outbox (s : State) : (s.setHaz).outbox = s.outbox := rfl

/-! ### State.recordError -/

@[simp] theorem State.recordError_status (s : State) (e : CmdError) : (s.recordError e).status = { s.status with errv := true, err := errorCode e } := rfl
@[simp] theorem State.recordError_width (s : State) (e : CmdError) : (s.recordError e).width = s.width := rfl
@[simp] theorem State.recordError_height (s : State) (e : CmdError) : (s.recordError e).height = s.height := rfl
@[simp] theorem State.recordError_len0 (s : State) (e : CmdError) : (s.recordError e).len0 = s.len0 := rfl
@[simp] theorem State.recordError_len1 (s : State) (e : CmdError) : (s.recordError e).len1 = s.len1 := rfl
@[simp] theorem State.recordError_dcount (s : State) (e : CmdError) : (s.recordError e).dcount = s.dcount := rfl
@[simp] theorem State.recordError_irqen (s : State) (e : CmdError) : (s.recordError e).irqen = s.irqen := rfl
@[simp] theorem State.recordError_pending (s : State) (e : CmdError) : (s.recordError e).pending = s.pending := rfl
@[simp] theorem State.recordError_src (s : State) (e : CmdError) : (s.recordError e).src = s.src := rfl
@[simp] theorem State.recordError_pbuf0 (s : State) (e : CmdError) : (s.recordError e).pbuf0 = s.pbuf0 := rfl
@[simp] theorem State.recordError_pbuf1 (s : State) (e : CmdError) : (s.recordError e).pbuf1 = s.pbuf1 := rfl
@[simp] theorem State.recordError_diffmem (s : State) (e : CmdError) : (s.recordError e).diffmem = s.diffmem := rfl
@[simp] theorem State.recordError_rstN (s : State) (e : CmdError) : (s.recordError e).rstN = s.rstN := rfl
@[simp] theorem State.recordError_params (s : State) (e : CmdError) : (s.recordError e).params = s.params := rfl
@[simp] theorem State.recordError_draws (s : State) (e : CmdError) : (s.recordError e).draws = s.draws := rfl
@[simp] theorem State.recordError_inbox (s : State) (e : CmdError) : (s.recordError e).inbox = s.inbox := rfl
@[simp] theorem State.recordError_outbox (s : State) (e : CmdError) : (s.recordError e).outbox = s.outbox := rfl

/-! ### State.complete -/

@[simp] theorem State.complete_status (s : State) : (s.complete).status = { s.status with busy := false, done := true } := rfl
@[simp] theorem State.complete_width (s : State) : (s.complete).width = s.width := rfl
@[simp] theorem State.complete_height (s : State) : (s.complete).height = s.height := rfl
@[simp] theorem State.complete_len0 (s : State) : (s.complete).len0 = s.len0 := rfl
@[simp] theorem State.complete_len1 (s : State) : (s.complete).len1 = s.len1 := rfl
@[simp] theorem State.complete_dcount (s : State) : (s.complete).dcount = s.dcount := rfl
@[simp] theorem State.complete_irqen (s : State) : (s.complete).irqen = s.irqen := rfl
@[simp] theorem State.complete_pending (s : State) : (s.complete).pending = none := rfl
@[simp] theorem State.complete_src (s : State) : (s.complete).src = s.src := rfl
@[simp] theorem State.complete_pbuf0 (s : State) : (s.complete).pbuf0 = s.pbuf0 := rfl
@[simp] theorem State.complete_pbuf1 (s : State) : (s.complete).pbuf1 = s.pbuf1 := rfl
@[simp] theorem State.complete_diffmem (s : State) : (s.complete).diffmem = s.diffmem := rfl
@[simp] theorem State.complete_rstN (s : State) : (s.complete).rstN = s.rstN := rfl
@[simp] theorem State.complete_params (s : State) : (s.complete).params = s.params := rfl
@[simp] theorem State.complete_draws (s : State) : (s.complete).draws = s.draws := rfl
@[simp] theorem State.complete_inbox (s : State) : (s.complete).inbox = s.inbox := rfl
@[simp] theorem State.complete_outbox (s : State) : (s.complete).outbox = s.outbox := rfl

/-! ### State.enterReset -/

@[simp] theorem State.enterReset_status (s : State) : (s.enterReset).status = Status.reset := rfl
@[simp] theorem State.enterReset_width (s : State) : (s.enterReset).width = 0 := rfl
@[simp] theorem State.enterReset_height (s : State) : (s.enterReset).height = 0 := rfl
@[simp] theorem State.enterReset_len0 (s : State) : (s.enterReset).len0 = 0 := rfl
@[simp] theorem State.enterReset_len1 (s : State) : (s.enterReset).len1 = 0 := rfl
@[simp] theorem State.enterReset_dcount (s : State) : (s.enterReset).dcount = 0 := rfl
@[simp] theorem State.enterReset_irqen (s : State) : (s.enterReset).irqen = 0 := rfl
@[simp] theorem State.enterReset_pending (s : State) : (s.enterReset).pending = none := rfl
@[simp] theorem State.enterReset_src (s : State) : (s.enterReset).src = [] := rfl
@[simp] theorem State.enterReset_pbuf0 (s : State) : (s.enterReset).pbuf0 = [] := rfl
@[simp] theorem State.enterReset_pbuf1 (s : State) : (s.enterReset).pbuf1 = [] := rfl
@[simp] theorem State.enterReset_diffmem (s : State) : (s.enterReset).diffmem = [] := rfl
@[simp] theorem State.enterReset_rstN (s : State) : (s.enterReset).rstN = false := rfl
@[simp] theorem State.enterReset_params (s : State) : (s.enterReset).params = s.params := rfl
@[simp] theorem State.enterReset_draws (s : State) : (s.enterReset).draws = s.draws := rfl
@[simp] theorem State.enterReset_inbox (s : State) : (s.enterReset).inbox = s.inbox := rfl
@[simp] theorem State.enterReset_outbox (s : State) : (s.enterReset).outbox = s.outbox := rfl

/-! ### State.takeByte -/

@[simp] theorem State.takeByte_status (s : State) : (s.takeByte.2).status = s.status := rfl
@[simp] theorem State.takeByte_width (s : State) : (s.takeByte.2).width = s.width := rfl
@[simp] theorem State.takeByte_height (s : State) : (s.takeByte.2).height = s.height := rfl
@[simp] theorem State.takeByte_len0 (s : State) : (s.takeByte.2).len0 = s.len0 := rfl
@[simp] theorem State.takeByte_len1 (s : State) : (s.takeByte.2).len1 = s.len1 := rfl
@[simp] theorem State.takeByte_dcount (s : State) : (s.takeByte.2).dcount = s.dcount := rfl
@[simp] theorem State.takeByte_irqen (s : State) : (s.takeByte.2).irqen = s.irqen := rfl
@[simp] theorem State.takeByte_pending (s : State) : (s.takeByte.2).pending = s.pending := rfl
@[simp] theorem State.takeByte_src (s : State) : (s.takeByte.2).src = s.src := rfl
@[simp] theorem State.takeByte_pbuf0 (s : State) : (s.takeByte.2).pbuf0 = s.pbuf0 := rfl
@[simp] theorem State.takeByte_pbuf1 (s : State) : (s.takeByte.2).pbuf1 = s.pbuf1 := rfl
@[simp] theorem State.takeByte_diffmem (s : State) : (s.takeByte.2).diffmem = s.diffmem := rfl
@[simp] theorem State.takeByte_rstN (s : State) : (s.takeByte.2).rstN = s.rstN := rfl
@[simp] theorem State.takeByte_params (s : State) : (s.takeByte.2).params = s.params := rfl
@[simp] theorem State.takeByte_draws (s : State) : (s.takeByte.2).draws = s.draws + 1 := rfl
@[simp] theorem State.takeByte_inbox (s : State) : (s.takeByte.2).inbox = s.inbox := rfl
@[simp] theorem State.takeByte_outbox (s : State) : (s.takeByte.2).outbox = s.outbox := rfl

/-! ### State.takeWord -/

@[simp] theorem State.takeWord_status (s : State) : (s.takeWord.2).status = s.status := rfl
@[simp] theorem State.takeWord_width (s : State) : (s.takeWord.2).width = s.width := rfl
@[simp] theorem State.takeWord_height (s : State) : (s.takeWord.2).height = s.height := rfl
@[simp] theorem State.takeWord_len0 (s : State) : (s.takeWord.2).len0 = s.len0 := rfl
@[simp] theorem State.takeWord_len1 (s : State) : (s.takeWord.2).len1 = s.len1 := rfl
@[simp] theorem State.takeWord_dcount (s : State) : (s.takeWord.2).dcount = s.dcount := rfl
@[simp] theorem State.takeWord_irqen (s : State) : (s.takeWord.2).irqen = s.irqen := rfl
@[simp] theorem State.takeWord_pending (s : State) : (s.takeWord.2).pending = s.pending := rfl
@[simp] theorem State.takeWord_src (s : State) : (s.takeWord.2).src = s.src := rfl
@[simp] theorem State.takeWord_pbuf0 (s : State) : (s.takeWord.2).pbuf0 = s.pbuf0 := rfl
@[simp] theorem State.takeWord_pbuf1 (s : State) : (s.takeWord.2).pbuf1 = s.pbuf1 := rfl
@[simp] theorem State.takeWord_diffmem (s : State) : (s.takeWord.2).diffmem = s.diffmem := rfl
@[simp] theorem State.takeWord_rstN (s : State) : (s.takeWord.2).rstN = s.rstN := rfl
@[simp] theorem State.takeWord_params (s : State) : (s.takeWord.2).params = s.params := rfl
@[simp] theorem State.takeWord_draws (s : State) : (s.takeWord.2).draws = s.draws + 1 := rfl
@[simp] theorem State.takeWord_inbox (s : State) : (s.takeWord.2).inbox = s.inbox := rfl
@[simp] theorem State.takeWord_outbox (s : State) : (s.takeWord.2).outbox = s.outbox := rfl

/-! ### State.setPbuf -/

@[simp] theorem State.setPbuf_status (s : State) (b : Bank) (m : Memory 8) : (s.setPbuf b m).status = s.status := by cases b <;> rfl
@[simp] theorem State.setPbuf_width (s : State) (b : Bank) (m : Memory 8) : (s.setPbuf b m).width = s.width := by cases b <;> rfl
@[simp] theorem State.setPbuf_height (s : State) (b : Bank) (m : Memory 8) : (s.setPbuf b m).height = s.height := by cases b <;> rfl
@[simp] theorem State.setPbuf_len0 (s : State) (b : Bank) (m : Memory 8) : (s.setPbuf b m).len0 = s.len0 := by cases b <;> rfl
@[simp] theorem State.setPbuf_len1 (s : State) (b : Bank) (m : Memory 8) : (s.setPbuf b m).len1 = s.len1 := by cases b <;> rfl
@[simp] theorem State.setPbuf_dcount (s : State) (b : Bank) (m : Memory 8) : (s.setPbuf b m).dcount = s.dcount := by cases b <;> rfl
@[simp] theorem State.setPbuf_irqen (s : State) (b : Bank) (m : Memory 8) : (s.setPbuf b m).irqen = s.irqen := by cases b <;> rfl
@[simp] theorem State.setPbuf_pending (s : State) (b : Bank) (m : Memory 8) : (s.setPbuf b m).pending = s.pending := by cases b <;> rfl
@[simp] theorem State.setPbuf_src (s : State) (b : Bank) (m : Memory 8) : (s.setPbuf b m).src = s.src := by cases b <;> rfl
@[simp] theorem State.setPbuf_diffmem (s : State) (b : Bank) (m : Memory 8) : (s.setPbuf b m).diffmem = s.diffmem := by cases b <;> rfl
@[simp] theorem State.setPbuf_rstN (s : State) (b : Bank) (m : Memory 8) : (s.setPbuf b m).rstN = s.rstN := by cases b <;> rfl
@[simp] theorem State.setPbuf_params (s : State) (b : Bank) (m : Memory 8) : (s.setPbuf b m).params = s.params := by cases b <;> rfl
@[simp] theorem State.setPbuf_draws (s : State) (b : Bank) (m : Memory 8) : (s.setPbuf b m).draws = s.draws := by cases b <;> rfl
@[simp] theorem State.setPbuf_inbox (s : State) (b : Bank) (m : Memory 8) : (s.setPbuf b m).inbox = s.inbox := by cases b <;> rfl
@[simp] theorem State.setPbuf_outbox (s : State) (b : Bank) (m : Memory 8) : (s.setPbuf b m).outbox = s.outbox := by cases b <;> rfl

/-! ### State.setLen -/

@[simp] theorem State.setLen_status (s : State) (b : Bank) (n : BitVec 17) : (s.setLen b n).status = s.status := by cases b <;> rfl
@[simp] theorem State.setLen_width (s : State) (b : Bank) (n : BitVec 17) : (s.setLen b n).width = s.width := by cases b <;> rfl
@[simp] theorem State.setLen_height (s : State) (b : Bank) (n : BitVec 17) : (s.setLen b n).height = s.height := by cases b <;> rfl
@[simp] theorem State.setLen_dcount (s : State) (b : Bank) (n : BitVec 17) : (s.setLen b n).dcount = s.dcount := by cases b <;> rfl
@[simp] theorem State.setLen_irqen (s : State) (b : Bank) (n : BitVec 17) : (s.setLen b n).irqen = s.irqen := by cases b <;> rfl
@[simp] theorem State.setLen_pending (s : State) (b : Bank) (n : BitVec 17) : (s.setLen b n).pending = s.pending := by cases b <;> rfl
@[simp] theorem State.setLen_src (s : State) (b : Bank) (n : BitVec 17) : (s.setLen b n).src = s.src := by cases b <;> rfl
@[simp] theorem State.setLen_pbuf0 (s : State) (b : Bank) (n : BitVec 17) : (s.setLen b n).pbuf0 = s.pbuf0 := by cases b <;> rfl
@[simp] theorem State.setLen_pbuf1 (s : State) (b : Bank) (n : BitVec 17) : (s.setLen b n).pbuf1 = s.pbuf1 := by cases b <;> rfl
@[simp] theorem State.setLen_diffmem (s : State) (b : Bank) (n : BitVec 17) : (s.setLen b n).diffmem = s.diffmem := by cases b <;> rfl
@[simp] theorem State.setLen_rstN (s : State) (b : Bank) (n : BitVec 17) : (s.setLen b n).rstN = s.rstN := by cases b <;> rfl
@[simp] theorem State.setLen_params (s : State) (b : Bank) (n : BitVec 17) : (s.setLen b n).params = s.params := by cases b <;> rfl
@[simp] theorem State.setLen_draws (s : State) (b : Bank) (n : BitVec 17) : (s.setLen b n).draws = s.draws := by cases b <;> rfl
@[simp] theorem State.setLen_inbox (s : State) (b : Bank) (n : BitVec 17) : (s.setLen b n).inbox = s.inbox := by cases b <;> rfl
@[simp] theorem State.setLen_outbox (s : State) (b : Bank) (n : BitVec 17) : (s.setLen b n).outbox = s.outbox := by cases b <;> rfl

/-! ### State.setStatus -/

@[simp] theorem State.setStatus_status (s : State) (t : Status) : (s.setStatus t).status = t := rfl
@[simp] theorem State.setStatus_width (s : State) (t : Status) : (s.setStatus t).width = s.width := rfl
@[simp] theorem State.setStatus_height (s : State) (t : Status) : (s.setStatus t).height = s.height := rfl
@[simp] theorem State.setStatus_len0 (s : State) (t : Status) : (s.setStatus t).len0 = s.len0 := rfl
@[simp] theorem State.setStatus_len1 (s : State) (t : Status) : (s.setStatus t).len1 = s.len1 := rfl
@[simp] theorem State.setStatus_dcount (s : State) (t : Status) : (s.setStatus t).dcount = s.dcount := rfl
@[simp] theorem State.setStatus_irqen (s : State) (t : Status) : (s.setStatus t).irqen = s.irqen := rfl
@[simp] theorem State.setStatus_pending (s : State) (t : Status) : (s.setStatus t).pending = s.pending := rfl
@[simp] theorem State.setStatus_src (s : State) (t : Status) : (s.setStatus t).src = s.src := rfl
@[simp] theorem State.setStatus_pbuf0 (s : State) (t : Status) : (s.setStatus t).pbuf0 = s.pbuf0 := rfl
@[simp] theorem State.setStatus_pbuf1 (s : State) (t : Status) : (s.setStatus t).pbuf1 = s.pbuf1 := rfl
@[simp] theorem State.setStatus_diffmem (s : State) (t : Status) : (s.setStatus t).diffmem = s.diffmem := rfl
@[simp] theorem State.setStatus_rstN (s : State) (t : Status) : (s.setStatus t).rstN = s.rstN := rfl
@[simp] theorem State.setStatus_params (s : State) (t : Status) : (s.setStatus t).params = s.params := rfl
@[simp] theorem State.setStatus_draws (s : State) (t : Status) : (s.setStatus t).draws = s.draws := rfl
@[simp] theorem State.setStatus_inbox (s : State) (t : Status) : (s.setStatus t).inbox = s.inbox := rfl
@[simp] theorem State.setStatus_outbox (s : State) (t : Status) : (s.setStatus t).outbox = s.outbox := rfl

/-! ### State.setWidth -/

@[simp] theorem State.setWidth_status (s : State) (v : BitVec 16) : (s.setWidth v).status = s.status := rfl
@[simp] theorem State.setWidth_width (s : State) (v : BitVec 16) : (s.setWidth v).width = v := rfl
@[simp] theorem State.setWidth_height (s : State) (v : BitVec 16) : (s.setWidth v).height = s.height := rfl
@[simp] theorem State.setWidth_len0 (s : State) (v : BitVec 16) : (s.setWidth v).len0 = s.len0 := rfl
@[simp] theorem State.setWidth_len1 (s : State) (v : BitVec 16) : (s.setWidth v).len1 = s.len1 := rfl
@[simp] theorem State.setWidth_dcount (s : State) (v : BitVec 16) : (s.setWidth v).dcount = s.dcount := rfl
@[simp] theorem State.setWidth_irqen (s : State) (v : BitVec 16) : (s.setWidth v).irqen = s.irqen := rfl
@[simp] theorem State.setWidth_pending (s : State) (v : BitVec 16) : (s.setWidth v).pending = s.pending := rfl
@[simp] theorem State.setWidth_src (s : State) (v : BitVec 16) : (s.setWidth v).src = s.src := rfl
@[simp] theorem State.setWidth_pbuf0 (s : State) (v : BitVec 16) : (s.setWidth v).pbuf0 = s.pbuf0 := rfl
@[simp] theorem State.setWidth_pbuf1 (s : State) (v : BitVec 16) : (s.setWidth v).pbuf1 = s.pbuf1 := rfl
@[simp] theorem State.setWidth_diffmem (s : State) (v : BitVec 16) : (s.setWidth v).diffmem = s.diffmem := rfl
@[simp] theorem State.setWidth_rstN (s : State) (v : BitVec 16) : (s.setWidth v).rstN = s.rstN := rfl
@[simp] theorem State.setWidth_params (s : State) (v : BitVec 16) : (s.setWidth v).params = s.params := rfl
@[simp] theorem State.setWidth_draws (s : State) (v : BitVec 16) : (s.setWidth v).draws = s.draws := rfl
@[simp] theorem State.setWidth_inbox (s : State) (v : BitVec 16) : (s.setWidth v).inbox = s.inbox := rfl
@[simp] theorem State.setWidth_outbox (s : State) (v : BitVec 16) : (s.setWidth v).outbox = s.outbox := rfl

/-! ### State.setHeight -/

@[simp] theorem State.setHeight_status (s : State) (v : BitVec 16) : (s.setHeight v).status = s.status := rfl
@[simp] theorem State.setHeight_width (s : State) (v : BitVec 16) : (s.setHeight v).width = s.width := rfl
@[simp] theorem State.setHeight_height (s : State) (v : BitVec 16) : (s.setHeight v).height = v := rfl
@[simp] theorem State.setHeight_len0 (s : State) (v : BitVec 16) : (s.setHeight v).len0 = s.len0 := rfl
@[simp] theorem State.setHeight_len1 (s : State) (v : BitVec 16) : (s.setHeight v).len1 = s.len1 := rfl
@[simp] theorem State.setHeight_dcount (s : State) (v : BitVec 16) : (s.setHeight v).dcount = s.dcount := rfl
@[simp] theorem State.setHeight_irqen (s : State) (v : BitVec 16) : (s.setHeight v).irqen = s.irqen := rfl
@[simp] theorem State.setHeight_pending (s : State) (v : BitVec 16) : (s.setHeight v).pending = s.pending := rfl
@[simp] theorem State.setHeight_src (s : State) (v : BitVec 16) : (s.setHeight v).src = s.src := rfl
@[simp] theorem State.setHeight_pbuf0 (s : State) (v : BitVec 16) : (s.setHeight v).pbuf0 = s.pbuf0 := rfl
@[simp] theorem State.setHeight_pbuf1 (s : State) (v : BitVec 16) : (s.setHeight v).pbuf1 = s.pbuf1 := rfl
@[simp] theorem State.setHeight_diffmem (s : State) (v : BitVec 16) : (s.setHeight v).diffmem = s.diffmem := rfl
@[simp] theorem State.setHeight_rstN (s : State) (v : BitVec 16) : (s.setHeight v).rstN = s.rstN := rfl
@[simp] theorem State.setHeight_params (s : State) (v : BitVec 16) : (s.setHeight v).params = s.params := rfl
@[simp] theorem State.setHeight_draws (s : State) (v : BitVec 16) : (s.setHeight v).draws = s.draws := rfl
@[simp] theorem State.setHeight_inbox (s : State) (v : BitVec 16) : (s.setHeight v).inbox = s.inbox := rfl
@[simp] theorem State.setHeight_outbox (s : State) (v : BitVec 16) : (s.setHeight v).outbox = s.outbox := rfl

/-! ### State.setIrqen -/

@[simp] theorem State.setIrqen_status (s : State) (v : BitVec 3) : (s.setIrqen v).status = s.status := rfl
@[simp] theorem State.setIrqen_width (s : State) (v : BitVec 3) : (s.setIrqen v).width = s.width := rfl
@[simp] theorem State.setIrqen_height (s : State) (v : BitVec 3) : (s.setIrqen v).height = s.height := rfl
@[simp] theorem State.setIrqen_len0 (s : State) (v : BitVec 3) : (s.setIrqen v).len0 = s.len0 := rfl
@[simp] theorem State.setIrqen_len1 (s : State) (v : BitVec 3) : (s.setIrqen v).len1 = s.len1 := rfl
@[simp] theorem State.setIrqen_dcount (s : State) (v : BitVec 3) : (s.setIrqen v).dcount = s.dcount := rfl
@[simp] theorem State.setIrqen_irqen (s : State) (v : BitVec 3) : (s.setIrqen v).irqen = v := rfl
@[simp] theorem State.setIrqen_pending (s : State) (v : BitVec 3) : (s.setIrqen v).pending = s.pending := rfl
@[simp] theorem State.setIrqen_src (s : State) (v : BitVec 3) : (s.setIrqen v).src = s.src := rfl
@[simp] theorem State.setIrqen_pbuf0 (s : State) (v : BitVec 3) : (s.setIrqen v).pbuf0 = s.pbuf0 := rfl
@[simp] theorem State.setIrqen_pbuf1 (s : State) (v : BitVec 3) : (s.setIrqen v).pbuf1 = s.pbuf1 := rfl
@[simp] theorem State.setIrqen_diffmem (s : State) (v : BitVec 3) : (s.setIrqen v).diffmem = s.diffmem := rfl
@[simp] theorem State.setIrqen_rstN (s : State) (v : BitVec 3) : (s.setIrqen v).rstN = s.rstN := rfl
@[simp] theorem State.setIrqen_params (s : State) (v : BitVec 3) : (s.setIrqen v).params = s.params := rfl
@[simp] theorem State.setIrqen_draws (s : State) (v : BitVec 3) : (s.setIrqen v).draws = s.draws := rfl
@[simp] theorem State.setIrqen_inbox (s : State) (v : BitVec 3) : (s.setIrqen v).inbox = s.inbox := rfl
@[simp] theorem State.setIrqen_outbox (s : State) (v : BitVec 3) : (s.setIrqen v).outbox = s.outbox := rfl

/-! ### State.setSrc -/

@[simp] theorem State.setSrc_status (s : State) (m : Memory 8) : (s.setSrc m).status = s.status := rfl
@[simp] theorem State.setSrc_width (s : State) (m : Memory 8) : (s.setSrc m).width = s.width := rfl
@[simp] theorem State.setSrc_height (s : State) (m : Memory 8) : (s.setSrc m).height = s.height := rfl
@[simp] theorem State.setSrc_len0 (s : State) (m : Memory 8) : (s.setSrc m).len0 = s.len0 := rfl
@[simp] theorem State.setSrc_len1 (s : State) (m : Memory 8) : (s.setSrc m).len1 = s.len1 := rfl
@[simp] theorem State.setSrc_dcount (s : State) (m : Memory 8) : (s.setSrc m).dcount = s.dcount := rfl
@[simp] theorem State.setSrc_irqen (s : State) (m : Memory 8) : (s.setSrc m).irqen = s.irqen := rfl
@[simp] theorem State.setSrc_pending (s : State) (m : Memory 8) : (s.setSrc m).pending = s.pending := rfl
@[simp] theorem State.setSrc_src (s : State) (m : Memory 8) : (s.setSrc m).src = m := rfl
@[simp] theorem State.setSrc_pbuf0 (s : State) (m : Memory 8) : (s.setSrc m).pbuf0 = s.pbuf0 := rfl
@[simp] theorem State.setSrc_pbuf1 (s : State) (m : Memory 8) : (s.setSrc m).pbuf1 = s.pbuf1 := rfl
@[simp] theorem State.setSrc_diffmem (s : State) (m : Memory 8) : (s.setSrc m).diffmem = s.diffmem := rfl
@[simp] theorem State.setSrc_rstN (s : State) (m : Memory 8) : (s.setSrc m).rstN = s.rstN := rfl
@[simp] theorem State.setSrc_params (s : State) (m : Memory 8) : (s.setSrc m).params = s.params := rfl
@[simp] theorem State.setSrc_draws (s : State) (m : Memory 8) : (s.setSrc m).draws = s.draws := rfl
@[simp] theorem State.setSrc_inbox (s : State) (m : Memory 8) : (s.setSrc m).inbox = s.inbox := rfl
@[simp] theorem State.setSrc_outbox (s : State) (m : Memory 8) : (s.setSrc m).outbox = s.outbox := rfl

/-! ### State.setDiffmem -/

@[simp] theorem State.setDiffmem_status (s : State) (m : Memory 32) : (s.setDiffmem m).status = s.status := rfl
@[simp] theorem State.setDiffmem_width (s : State) (m : Memory 32) : (s.setDiffmem m).width = s.width := rfl
@[simp] theorem State.setDiffmem_height (s : State) (m : Memory 32) : (s.setDiffmem m).height = s.height := rfl
@[simp] theorem State.setDiffmem_len0 (s : State) (m : Memory 32) : (s.setDiffmem m).len0 = s.len0 := rfl
@[simp] theorem State.setDiffmem_len1 (s : State) (m : Memory 32) : (s.setDiffmem m).len1 = s.len1 := rfl
@[simp] theorem State.setDiffmem_dcount (s : State) (m : Memory 32) : (s.setDiffmem m).dcount = s.dcount := rfl
@[simp] theorem State.setDiffmem_irqen (s : State) (m : Memory 32) : (s.setDiffmem m).irqen = s.irqen := rfl
@[simp] theorem State.setDiffmem_pending (s : State) (m : Memory 32) : (s.setDiffmem m).pending = s.pending := rfl
@[simp] theorem State.setDiffmem_src (s : State) (m : Memory 32) : (s.setDiffmem m).src = s.src := rfl
@[simp] theorem State.setDiffmem_pbuf0 (s : State) (m : Memory 32) : (s.setDiffmem m).pbuf0 = s.pbuf0 := rfl
@[simp] theorem State.setDiffmem_pbuf1 (s : State) (m : Memory 32) : (s.setDiffmem m).pbuf1 = s.pbuf1 := rfl
@[simp] theorem State.setDiffmem_diffmem (s : State) (m : Memory 32) : (s.setDiffmem m).diffmem = m := rfl
@[simp] theorem State.setDiffmem_rstN (s : State) (m : Memory 32) : (s.setDiffmem m).rstN = s.rstN := rfl
@[simp] theorem State.setDiffmem_params (s : State) (m : Memory 32) : (s.setDiffmem m).params = s.params := rfl
@[simp] theorem State.setDiffmem_draws (s : State) (m : Memory 32) : (s.setDiffmem m).draws = s.draws := rfl
@[simp] theorem State.setDiffmem_inbox (s : State) (m : Memory 32) : (s.setDiffmem m).inbox = s.inbox := rfl
@[simp] theorem State.setDiffmem_outbox (s : State) (m : Memory 32) : (s.setDiffmem m).outbox = s.outbox := rfl

/-! ### State.setDcount -/

@[simp] theorem State.setDcount_status (s : State) (k : BitVec 17) : (s.setDcount k).status = s.status := rfl
@[simp] theorem State.setDcount_width (s : State) (k : BitVec 17) : (s.setDcount k).width = s.width := rfl
@[simp] theorem State.setDcount_height (s : State) (k : BitVec 17) : (s.setDcount k).height = s.height := rfl
@[simp] theorem State.setDcount_len0 (s : State) (k : BitVec 17) : (s.setDcount k).len0 = s.len0 := rfl
@[simp] theorem State.setDcount_len1 (s : State) (k : BitVec 17) : (s.setDcount k).len1 = s.len1 := rfl
@[simp] theorem State.setDcount_dcount (s : State) (k : BitVec 17) : (s.setDcount k).dcount = k := rfl
@[simp] theorem State.setDcount_irqen (s : State) (k : BitVec 17) : (s.setDcount k).irqen = s.irqen := rfl
@[simp] theorem State.setDcount_pending (s : State) (k : BitVec 17) : (s.setDcount k).pending = s.pending := rfl
@[simp] theorem State.setDcount_src (s : State) (k : BitVec 17) : (s.setDcount k).src = s.src := rfl
@[simp] theorem State.setDcount_pbuf0 (s : State) (k : BitVec 17) : (s.setDcount k).pbuf0 = s.pbuf0 := rfl
@[simp] theorem State.setDcount_pbuf1 (s : State) (k : BitVec 17) : (s.setDcount k).pbuf1 = s.pbuf1 := rfl
@[simp] theorem State.setDcount_diffmem (s : State) (k : BitVec 17) : (s.setDcount k).diffmem = s.diffmem := rfl
@[simp] theorem State.setDcount_rstN (s : State) (k : BitVec 17) : (s.setDcount k).rstN = s.rstN := rfl
@[simp] theorem State.setDcount_params (s : State) (k : BitVec 17) : (s.setDcount k).params = s.params := rfl
@[simp] theorem State.setDcount_draws (s : State) (k : BitVec 17) : (s.setDcount k).draws = s.draws := rfl
@[simp] theorem State.setDcount_inbox (s : State) (k : BitVec 17) : (s.setDcount k).inbox = s.inbox := rfl
@[simp] theorem State.setDcount_outbox (s : State) (k : BitVec 17) : (s.setDcount k).outbox = s.outbox := rfl

/-! ### State.setRstN -/

@[simp] theorem State.setRstN_status (s : State) (b : Bool) : (s.setRstN b).status = s.status := rfl
@[simp] theorem State.setRstN_width (s : State) (b : Bool) : (s.setRstN b).width = s.width := rfl
@[simp] theorem State.setRstN_height (s : State) (b : Bool) : (s.setRstN b).height = s.height := rfl
@[simp] theorem State.setRstN_len0 (s : State) (b : Bool) : (s.setRstN b).len0 = s.len0 := rfl
@[simp] theorem State.setRstN_len1 (s : State) (b : Bool) : (s.setRstN b).len1 = s.len1 := rfl
@[simp] theorem State.setRstN_dcount (s : State) (b : Bool) : (s.setRstN b).dcount = s.dcount := rfl
@[simp] theorem State.setRstN_irqen (s : State) (b : Bool) : (s.setRstN b).irqen = s.irqen := rfl
@[simp] theorem State.setRstN_pending (s : State) (b : Bool) : (s.setRstN b).pending = s.pending := rfl
@[simp] theorem State.setRstN_src (s : State) (b : Bool) : (s.setRstN b).src = s.src := rfl
@[simp] theorem State.setRstN_pbuf0 (s : State) (b : Bool) : (s.setRstN b).pbuf0 = s.pbuf0 := rfl
@[simp] theorem State.setRstN_pbuf1 (s : State) (b : Bool) : (s.setRstN b).pbuf1 = s.pbuf1 := rfl
@[simp] theorem State.setRstN_diffmem (s : State) (b : Bool) : (s.setRstN b).diffmem = s.diffmem := rfl
@[simp] theorem State.setRstN_rstN (s : State) (b : Bool) : (s.setRstN b).rstN = b := rfl
@[simp] theorem State.setRstN_params (s : State) (b : Bool) : (s.setRstN b).params = s.params := rfl
@[simp] theorem State.setRstN_draws (s : State) (b : Bool) : (s.setRstN b).draws = s.draws := rfl
@[simp] theorem State.setRstN_inbox (s : State) (b : Bool) : (s.setRstN b).inbox = s.inbox := rfl
@[simp] theorem State.setRstN_outbox (s : State) (b : Bool) : (s.setRstN b).outbox = s.outbox := rfl

/-! ### State.setInbox -/

@[simp] theorem State.setInbox_status (s : State) (es : List Event) : (s.setInbox es).status = s.status := rfl
@[simp] theorem State.setInbox_width (s : State) (es : List Event) : (s.setInbox es).width = s.width := rfl
@[simp] theorem State.setInbox_height (s : State) (es : List Event) : (s.setInbox es).height = s.height := rfl
@[simp] theorem State.setInbox_len0 (s : State) (es : List Event) : (s.setInbox es).len0 = s.len0 := rfl
@[simp] theorem State.setInbox_len1 (s : State) (es : List Event) : (s.setInbox es).len1 = s.len1 := rfl
@[simp] theorem State.setInbox_dcount (s : State) (es : List Event) : (s.setInbox es).dcount = s.dcount := rfl
@[simp] theorem State.setInbox_irqen (s : State) (es : List Event) : (s.setInbox es).irqen = s.irqen := rfl
@[simp] theorem State.setInbox_pending (s : State) (es : List Event) : (s.setInbox es).pending = s.pending := rfl
@[simp] theorem State.setInbox_src (s : State) (es : List Event) : (s.setInbox es).src = s.src := rfl
@[simp] theorem State.setInbox_pbuf0 (s : State) (es : List Event) : (s.setInbox es).pbuf0 = s.pbuf0 := rfl
@[simp] theorem State.setInbox_pbuf1 (s : State) (es : List Event) : (s.setInbox es).pbuf1 = s.pbuf1 := rfl
@[simp] theorem State.setInbox_diffmem (s : State) (es : List Event) : (s.setInbox es).diffmem = s.diffmem := rfl
@[simp] theorem State.setInbox_rstN (s : State) (es : List Event) : (s.setInbox es).rstN = s.rstN := rfl
@[simp] theorem State.setInbox_params (s : State) (es : List Event) : (s.setInbox es).params = s.params := rfl
@[simp] theorem State.setInbox_draws (s : State) (es : List Event) : (s.setInbox es).draws = s.draws := rfl
@[simp] theorem State.setInbox_inbox (s : State) (es : List Event) : (s.setInbox es).inbox = es := rfl
@[simp] theorem State.setInbox_outbox (s : State) (es : List Event) : (s.setInbox es).outbox = s.outbox := rfl

/-! ### State.emit -/

@[simp] theorem State.emit_status (s : State) (r : Response) : (s.emit r).status = s.status := rfl
@[simp] theorem State.emit_width (s : State) (r : Response) : (s.emit r).width = s.width := rfl
@[simp] theorem State.emit_height (s : State) (r : Response) : (s.emit r).height = s.height := rfl
@[simp] theorem State.emit_len0 (s : State) (r : Response) : (s.emit r).len0 = s.len0 := rfl
@[simp] theorem State.emit_len1 (s : State) (r : Response) : (s.emit r).len1 = s.len1 := rfl
@[simp] theorem State.emit_dcount (s : State) (r : Response) : (s.emit r).dcount = s.dcount := rfl
@[simp] theorem State.emit_irqen (s : State) (r : Response) : (s.emit r).irqen = s.irqen := rfl
@[simp] theorem State.emit_pending (s : State) (r : Response) : (s.emit r).pending = s.pending := rfl
@[simp] theorem State.emit_src (s : State) (r : Response) : (s.emit r).src = s.src := rfl
@[simp] theorem State.emit_pbuf0 (s : State) (r : Response) : (s.emit r).pbuf0 = s.pbuf0 := rfl
@[simp] theorem State.emit_pbuf1 (s : State) (r : Response) : (s.emit r).pbuf1 = s.pbuf1 := rfl
@[simp] theorem State.emit_diffmem (s : State) (r : Response) : (s.emit r).diffmem = s.diffmem := rfl
@[simp] theorem State.emit_rstN (s : State) (r : Response) : (s.emit r).rstN = s.rstN := rfl
@[simp] theorem State.emit_params (s : State) (r : Response) : (s.emit r).params = s.params := rfl
@[simp] theorem State.emit_draws (s : State) (r : Response) : (s.emit r).draws = s.draws := rfl
@[simp] theorem State.emit_inbox (s : State) (r : Response) : (s.emit r).inbox = s.inbox := rfl
@[simp] theorem State.emit_outbox (s : State) (r : Response) : (s.emit r).outbox = s.outbox ++ [r] := rfl

/-! ### Banks -/

@[simp] theorem State.setPbuf_bank0_pbuf0 (s : State) (m : Memory 8) : (s.setPbuf .bank0 m).pbuf0 = m := rfl
@[simp] theorem State.setPbuf_bank0_pbuf1 (s : State) (m : Memory 8) : (s.setPbuf .bank0 m).pbuf1 = s.pbuf1 := rfl
@[simp] theorem State.setPbuf_bank1_pbuf0 (s : State) (m : Memory 8) : (s.setPbuf .bank1 m).pbuf0 = s.pbuf0 := rfl
@[simp] theorem State.setPbuf_bank1_pbuf1 (s : State) (m : Memory 8) : (s.setPbuf .bank1 m).pbuf1 = m := rfl
@[simp] theorem State.setLen_bank0_len0 (s : State) (n : BitVec 17) : (s.setLen .bank0 n).len0 = n := rfl
@[simp] theorem State.setLen_bank0_len1 (s : State) (n : BitVec 17) : (s.setLen .bank0 n).len1 = s.len1 := rfl
@[simp] theorem State.setLen_bank1_len0 (s : State) (n : BitVec 17) : (s.setLen .bank1 n).len0 = s.len0 := rfl
@[simp] theorem State.setLen_bank1_len1 (s : State) (n : BitVec 17) : (s.setLen .bank1 n).len1 = n := rfl
@[simp] theorem State.pbuf_bank0 (s : State) : s.pbuf .bank0 = s.pbuf0 := rfl
@[simp] theorem State.pbuf_bank1 (s : State) : s.pbuf .bank1 = s.pbuf1 := rfl
@[simp] theorem State.len_bank0 (s : State) : s.len .bank0 = s.len0 := rfl
@[simp] theorem State.len_bank1 (s : State) : s.len .bank1 = s.len1 := rfl

@[simp] theorem State.setPbuf_pbuf_same (s : State) (b : Bank) (m : Memory 8) : (s.setPbuf b m).pbuf b = m := by
  cases b <;> rfl

@[simp] theorem State.setPbuf_len (s : State) (b c : Bank) (m : Memory 8) : (s.setPbuf b m).len c = s.len c := by
  cases b <;> cases c <;> rfl

@[simp] theorem State.setLen_len_same (s : State) (b : Bank) (n : BitVec 17) : (s.setLen b n).len b = n := by
  cases b <;> rfl

@[simp] theorem State.setLen_pbuf (s : State) (b c : Bank) (n : BitVec 17) : (s.setLen b n).pbuf c = s.pbuf c := by
  cases b <;> cases c <;> rfl

/-! ### Banks through the other updates -/

@[simp] theorem State.setStatus_pbuf (s : State) (t : Status) (b : Bank) : (s.setStatus t).pbuf b = s.pbuf b := by cases b <;> rfl
@[simp] theorem State.setStatus_len (s : State) (t : Status) (b : Bank) : (s.setStatus t).len b = s.len b := by cases b <;> rfl
@[simp] theorem State.setWidth_pbuf (s : State) (v : BitVec 16) (b : Bank) : (s.setWidth v).pbuf b = s.pbuf b := by cases b <;> rfl
@[simp] theorem State.setWidth_len (s : State) (v : BitVec 16) (b : Bank) : (s.setWidth v).len b = s.len b := by cases b <;> rfl
@[simp] theorem State.setHeight_pbuf (s : State) (v : BitVec 16) (b : Bank) : (s.setHeight v).pbuf b = s.pbuf b := by cases b <;> rfl
@[simp] theorem State.setHeight_len (s : State) (v : BitVec 16) (b : Bank) : (s.setHeight v).len b = s.len b := by cases b <;> rfl
@[simp] theorem State.setIrqen_pbuf (s : State) (v : BitVec 3) (b : Bank) : (s.setIrqen v).pbuf b = s.pbuf b := by cases b <;> rfl
@[simp] theorem State.setIrqen_len (s : State) (v : BitVec 3) (b : Bank) : (s.setIrqen v).len b = s.len b := by cases b <;> rfl
@[simp] theorem State.setSrc_pbuf (s : State) (m : Memory 8) (b : Bank) : (s.setSrc m).pbuf b = s.pbuf b := by cases b <;> rfl
@[simp] theorem State.setSrc_len (s : State) (m : Memory 8) (b : Bank) : (s.setSrc m).len b = s.len b := by cases b <;> rfl
@[simp] theorem State.setDiffmem_pbuf (s : State) (m : Memory 32) (b : Bank) : (s.setDiffmem m).pbuf b = s.pbuf b := by cases b <;> rfl
@[simp] theorem State.setDiffmem_len (s : State) (m : Memory 32) (b : Bank) : (s.setDiffmem m).len b = s.len b := by cases b <;> rfl
@[simp] theorem State.setDcount_pbuf (s : State) (k : BitVec 17) (b : Bank) : (s.setDcount k).pbuf b = s.pbuf b := by cases b <;> rfl
@[simp] theorem State.setDcount_len (s : State) (k : BitVec 17) (b : Bank) : (s.setDcount k).len b = s.len b := by cases b <;> rfl
@[simp] theorem State.setRstN_pbuf (s : State) (r : Bool) (b : Bank) : (s.setRstN r).pbuf b = s.pbuf b := by cases b <;> rfl
@[simp] theorem State.setRstN_len (s : State) (r : Bool) (b : Bank) : (s.setRstN r).len b = s.len b := by cases b <;> rfl
@[simp] theorem State.setInbox_pbuf (s : State) (es : List Event) (b : Bank) : (s.setInbox es).pbuf b = s.pbuf b := by cases b <;> rfl
@[simp] theorem State.setInbox_len (s : State) (es : List Event) (b : Bank) : (s.setInbox es).len b = s.len b := by cases b <;> rfl
@[simp] theorem State.emit_pbuf (s : State) (r : Response) (b : Bank) : (s.emit r).pbuf b = s.pbuf b := by cases b <;> rfl
@[simp] theorem State.emit_len (s : State) (r : Response) (b : Bank) : (s.emit r).len b = s.len b := by cases b <;> rfl
@[simp] theorem State.accept_pbuf (s : State) (w : Word) (b : Bank) : (s.accept w).pbuf b = s.pbuf b := by cases b <;> rfl
@[simp] theorem State.accept_len (s : State) (w : Word) (b : Bank) : (s.accept w).len b = s.len b := by cases b <;> rfl
@[simp] theorem State.setHaz_pbuf (s : State) (b : Bank) : (s.setHaz).pbuf b = s.pbuf b := by cases b <;> rfl
@[simp] theorem State.setHaz_len (s : State) (b : Bank) : (s.setHaz).len b = s.len b := by cases b <;> rfl
@[simp] theorem State.recordError_pbuf (s : State) (e : CmdError) (b : Bank) : (s.recordError e).pbuf b = s.pbuf b := by cases b <;> rfl
@[simp] theorem State.recordError_len (s : State) (e : CmdError) (b : Bank) : (s.recordError e).len b = s.len b := by cases b <;> rfl
@[simp] theorem State.complete_pbuf (s : State) (b : Bank) : (s.complete).pbuf b = s.pbuf b := by cases b <;> rfl
@[simp] theorem State.complete_len (s : State) (b : Bank) : (s.complete).len b = s.len b := by cases b <;> rfl

theorem State.setPbuf_pbuf_other (s : State) {b c : Bank} (h : c ≠ b) (m : Memory 8) :
    (s.setPbuf b m).pbuf c = s.pbuf c := by
  cases b <;> cases c <;> first | rfl | exact absurd rfl h

theorem State.setLen_len_other (s : State) {b c : Bank} (h : c ≠ b) (n : BitVec 17) :
    (s.setLen b n).len c = s.len c := by
  cases b <;> cases c <;> first | rfl | exact absurd rfl h

end Sys2Proof.Machine
end

