-- ==== Sys2Proof/Laws/Command.lean ====
section
/-! SUPPORT. What the commit of a command can do, and how a command can end. -/

namespace Sys2Proof.Machine

@[simp] theorem performWrites_nil (s : State) : performWrites [] s = s := rfl

@[simp] theorem performWrites_cons (w : EngineWrite) (ws : List EngineWrite) (s : State) :
    performWrites (w :: ws) s = performWrites ws (applyWrite s w) := rfl

theorem performWrites_append (ws vs : List EngineWrite) (s : State) :
    performWrites (ws ++ vs) s = performWrites vs (performWrites ws s) := List.foldl_append

/-! ### What no write of a commit touches (40_command R110) -/

@[simp] theorem applyWrite_status (s : State) (w : EngineWrite) : (applyWrite s w).status = s.status := by
  cases w <;> simp [applyWrite]

@[simp] theorem performWrites_status (ws : List EngineWrite) (s : State) : (performWrites ws s).status = s.status := by
  induction ws generalizing s <;> simp_all

@[simp] theorem applyWrite_width (s : State) (w : EngineWrite) : (applyWrite s w).width = s.width := by
  cases w <;> simp [applyWrite]

@[simp] theorem performWrites_width (ws : List EngineWrite) (s : State) : (performWrites ws s).width = s.width := by
  induction ws generalizing s <;> simp_all

@[simp] theorem applyWrite_height (s : State) (w : EngineWrite) : (applyWrite s w).height = s.height := by
  cases w <;> simp [applyWrite]

@[simp] theorem performWrites_height (ws : List EngineWrite) (s : State) : (performWrites ws s).height = s.height := by
  induction ws generalizing s <;> simp_all

@[simp] theorem applyWrite_irqen (s : State) (w : EngineWrite) : (applyWrite s w).irqen = s.irqen := by
  cases w <;> simp [applyWrite]

@[simp] theorem performWrites_irqen (ws : List EngineWrite) (s : State) : (performWrites ws s).irqen = s.irqen := by
  induction ws generalizing s <;> simp_all

@[simp] theorem applyWrite_pending (s : State) (w : EngineWrite) : (applyWrite s w).pending = s.pending := by
  cases w <;> simp [applyWrite]

@[simp] theorem performWrites_pending (ws : List EngineWrite) (s : State) : (performWrites ws s).pending = s.pending := by
  induction ws generalizing s <;> simp_all

@[simp] theorem applyWrite_src (s : State) (w : EngineWrite) : (applyWrite s w).src = s.src := by
  cases w <;> simp [applyWrite]

@[simp] theorem performWrites_src (ws : List EngineWrite) (s : State) : (performWrites ws s).src = s.src := by
  induction ws generalizing s <;> simp_all

@[simp] theorem applyWrite_rstN (s : State) (w : EngineWrite) : (applyWrite s w).rstN = s.rstN := by
  cases w <;> simp [applyWrite]

@[simp] theorem performWrites_rstN (ws : List EngineWrite) (s : State) : (performWrites ws s).rstN = s.rstN := by
  induction ws generalizing s <;> simp_all

@[simp] theorem applyWrite_params (s : State) (w : EngineWrite) : (applyWrite s w).params = s.params := by
  cases w <;> simp [applyWrite]

@[simp] theorem performWrites_params (ws : List EngineWrite) (s : State) : (performWrites ws s).params = s.params := by
  induction ws generalizing s <;> simp_all

@[simp] theorem applyWrite_draws (s : State) (w : EngineWrite) : (applyWrite s w).draws = s.draws := by
  cases w <;> simp [applyWrite]

@[simp] theorem performWrites_draws (ws : List EngineWrite) (s : State) : (performWrites ws s).draws = s.draws := by
  induction ws generalizing s <;> simp_all

@[simp] theorem applyWrite_inbox (s : State) (w : EngineWrite) : (applyWrite s w).inbox = s.inbox := by
  cases w <;> simp [applyWrite]

@[simp] theorem performWrites_inbox (ws : List EngineWrite) (s : State) : (performWrites ws s).inbox = s.inbox := by
  induction ws generalizing s <;> simp_all

@[simp] theorem applyWrite_outbox (s : State) (w : EngineWrite) : (applyWrite s w).outbox = s.outbox := by
  cases w <;> simp [applyWrite]

@[simp] theorem performWrites_outbox (ws : List EngineWrite) (s : State) : (performWrites ws s).outbox = s.outbox := by
  induction ws generalizing s <;> simp_all

/-! ### The byte writes of a CONVERT and the entry writes of a DIFF -/

/-- Bytes committed to bank a change no field but that bank's contents. -/
theorem performWrites_pbuf (a : Bank) (out : Memory 8) (s : State) :
    performWrites (out.map fun c => EngineWrite.pbuf a c.1 c.2) s =
      s.setPbuf a (out.foldl (fun m c => Memory.write m c.1 c.2) (s.pbuf a)) := by
  induction out generalizing s with
  | nil => cases a <;> rfl
  | cons c out ih =>
    rw [List.map_cons, performWrites_cons, ih]
    cases a <;> rfl

/-- What a byte reads as after the bytes of a canonical memory are written over another. -/
theorem read_writeOver (out m : Memory 8) (i : Nat) (h : Memory.wf out = true) :
    Memory.read (out.foldl (fun m c => Memory.write m c.1 c.2) m) i =
      match Memory.read out i with
      | some v => some v
      | none => Memory.read m i := by
  have absent : ∀ (l : Memory 8) (lo : Nat), Memory.risesAbove lo l = true → ∀ k ≤ lo, Memory.read l k = none := by
    intro l
    induction l with
    | nil => intros; rfl
    | cons c l ih =>
      intro lo hl k hk
      simp only [Memory.risesAbove, Bool.and_eq_true, decide_eq_true_eq] at hl
      have : k ≠ c.1 := by omega
      simp [Memory.read, this, ih c.1 hl.2 k (by omega)]
  have tail_wf : ∀ (l : Memory 8) (lo : Nat), Memory.risesAbove lo l = true → Memory.wf l = true := by
    intro l lo hl
    cases l with
    | nil => rfl
    | cons c l => simp only [Memory.risesAbove, Bool.and_eq_true] at hl; exact hl.2
  induction out generalizing m with
  | nil => rfl
  | cons c out ih =>
    simp only [Memory.wf] at h
    rw [List.foldl_cons, ih _ (tail_wf _ _ h)]
    by_cases hi : i = c.1
    · subst hi
      simp [Memory.read, absent out c.1 h c.1 (le_refl _)]
    · simp only [Memory.read, hi, if_false, Memory.read_write_other _ hi]

/-- Entries committed change no field but DIFFMEM. -/
theorem performWrites_entryWrites (es : List DiffEntry) (i : Nat) (s : State) :
    performWrites (entryWrites i es) s =
      s.setDiffmem (performWrites (entryWrites i es) s).diffmem := by
  induction es generalizing i s with
  | nil => rfl
  | cons e es ih =>
    simp only [entryWrites, performWrites_cons, applyWrite]
    rw [ih]
    rfl

/-- What a DIFFMEM entry reads as after the entries are committed from index i on (42_diff R146). -/
theorem read_entryWrites (es : List DiffEntry) (i k : Nat) (s : State) :
    Memory.read (performWrites (entryWrites i es) s).diffmem k =
      if i ≤ k ∧ k < i + es.length then es[k - i]?.map entryWord else Memory.read s.diffmem k := by
  induction es generalizing i s with
  | nil =>
    have : ¬ (i ≤ k ∧ k < i + ([] : List DiffEntry).length) := by simp
    rw [if_neg this]; rfl
  | cons e es ih =>
    simp only [entryWrites, performWrites_cons, ih, applyWrite, State.setDiffmem_diffmem, Memory.read_write, List.length_cons]
    rcases lt_trichotomy k i with h | h | h
    · have h1 : ¬ (i + 1 ≤ k ∧ k < i + 1 + es.length) := by omega
      have h2 : ¬ (i ≤ k ∧ k < i + (es.length + 1)) := by omega
      rw [if_neg h1, if_neg h2, if_neg (Nat.ne_of_lt h)]
    · subst h
      simp
    · have h3 : k - i = (k - (i + 1)) + 1 := by omega
      have h4 : (i + 1 ≤ k ∧ k < i + 1 + es.length) ↔ (i ≤ k ∧ k < i + (es.length + 1)) := by omega
      rw [if_neg (Nat.ne_of_gt h), h3, List.getElem?_cons_succ]
      exact if_congr h4 rfl rfl

/-! ### How a command ends -/

/-- Everything `finish` can do with a next state: all of the writes, or the error and nothing else (40_command R103). -/
theorem finish_eq_next {r : CmdResult} {s t : State} :
    finish r s = .next t ↔
      (∃ ws, r = .ok (.ok ws) ∧ t = (performWrites ws s).complete) ∨
      (∃ e, r = .ok (.error e) ∧ t = (s.recordError e).complete) := by
  rcases r with f | e | ws <;> simp [finish, eq_comm]

theorem finish_eq_fault {r : CmdResult} {s : State} {f : Fault} : finish r s = .fault f ↔ r = .error f := by
  rcases r with f | e | ws <;> simp [finish]

theorem finish_ne_refused (r : CmdResult) (s : State) (q : Refusal) : finish r s ≠ .refused q := by
  rcases r with f | e | ws <;> simp [finish]

/-- Every completion leaves BUSY = 0, DONE = 1, no command pending, and HAZ as it was (40_command R104, R110). -/
theorem finish_next_status {r : CmdResult} {s t : State} (h : finish r s = .next t) :
    t.pending = none ∧ t.status.busy = false ∧ t.status.done = true ∧ t.status.haz = s.status.haz := by
  rcases finish_eq_next.1 h with ⟨ws, -, rfl⟩ | ⟨e, -, rfl⟩ <;> simp

/-- What no command writes (40_command R110). -/
theorem finish_next_frame {r : CmdResult} {s t : State} (h : finish r s = .next t) :
    t.width = s.width ∧ t.height = s.height ∧ t.irqen = s.irqen ∧ t.src = s.src ∧ t.rstN = s.rstN ∧
    t.params = s.params ∧ t.draws = s.draws ∧ t.inbox = s.inbox ∧ t.outbox = s.outbox := by
  rcases finish_eq_next.1 h with ⟨ws, -, rfl⟩ | ⟨e, -, rfl⟩ <;> simp

/-- Every command is `finish` of what it computes. -/
theorem exec_is_finish (i : Instr) (s : State) : ∃ r, exec i s = finish r s := by
  cases i with
  | nop => exact ⟨.ok (.ok []), rfl⟩
  | convert a => exact ⟨convertCmd a s, rfl⟩
  | diff a b => exact ⟨diffCmd a b s, rfl⟩

theorem runWord_is_finish (w : Word) (s : State) : ∃ r, runWord w s = finish r s := by
  unfold runWord
  split
  · exact exec_is_finish _ _
  · exact ⟨.ok (.error .illegalCommand), rfl⟩

/-- Everything the engine's turn can do: nothing, or the completion of the pending command, or a fault. -/
theorem engineTurn_cases (s : State) :
    (engineTurn s = .next s ∧ (s.pending = none ∨ s.rstN = false)) ∨
    ∃ w r, s.pending = some w ∧ s.rstN = true ∧ engineTurn s = runWord w s ∧ runWord w s = finish r s := by
  unfold engineTurn
  split
  · next w hw =>
    split
    · next hr =>
      obtain ⟨r, h⟩ := runWord_is_finish w s
      exact .inr ⟨w, r, hw, hr, rfl, h⟩
    · next hr => exact .inl ⟨rfl, .inr (by simpa using hr)⟩
  · next hn => exact .inl ⟨rfl, .inl hn⟩

end Sys2Proof.Machine
end

