-- ==== Sys2Proof/Laws/HostPort.lean ====
section
/-! SUPPORT. Everything a host transaction can do to the state, and everything a step can do. -/

namespace Sys2Proof.Machine

/-- The states a host transaction can leave (20_memory R62 to R71, 70_reset R200), with what each needs. -/
inductive AccessEffect (acc : Access) (a : BitVec 19) (s : State) : State → Prop where
  | nothing : AccessEffect acc a s s
  | hazard (h : s.status.busy = true) : AccessEffect acc a s s.setHaz
  | drawByte : AccessEffect acc a s s.takeByte.2
  | drawWord : AccessEffect acc a s s.takeWord.2
  | hazardDrawByte (h : s.status.busy = true) : AccessEffect acc a s s.setHaz.takeByte.2
  | hazardDrawWord (h : s.status.busy = true) : AccessEffect acc a s s.setHaz.takeWord.2
  | accepted (d : Word) (h : s.status.busy = false) (ha : acc = .write32 d) (ho : a = BitVec.ofNat 19 (regOffset .cmd)) :
      AccessEffect acc a s (s.accept d)
  | statusCleared (d : Word) (ha : acc = .write32 d)
      (ho : a = BitVec.ofNat 19 (regOffset .status)) : AccessEffect acc a s (s.setStatus (s.status.writeOneToClear d))
  | widthStored (d : Word) (h : s.status.busy = false) (ha : acc = .write32 d)
      (ho : a = BitVec.ofNat 19 (regOffset .width)) :
      AccessEffect acc a s (s.setWidth (d.extractLsb' 0 16))
  | heightStored (d : Word) (h : s.status.busy = false) (ha : acc = .write32 d)
      (ho : a = BitVec.ofNat 19 (regOffset .height)) :
      AccessEffect acc a s (s.setHeight (d.extractLsb' 0 16))
  | lenStored (b : Bank) (d : Word) (h : s.status.busy = false) (ha : acc = .write32 d)
      (ho : a = BitVec.ofNat 19 (regOffset (lenReg b))) :
      AccessEffect acc a s (s.setLen b (d.extractLsb' 0 17))
  | irqenStored (d : Word) (ha : acc = .write32 d)
      (ho : a = BitVec.ofNat 19 (regOffset .irqen)) : AccessEffect acc a s (s.setIrqen (d.extractLsb' 0 3))
  | srcStored (i : Nat) (d : Byte) (h : s.status.busy = false) (hi : i < s.params.srcCap) (ha : acc = .write8 d)
      (hw : windowOf a = .src) :
      AccessEffect acc a s (s.setSrc (Memory.write s.src i d))
  | pbufStored (b : Bank) (i : Nat) (d : Byte) (h : s.status.busy = false) (hi : i < s.params.pbufCap) (ha : acc = .write8 d)
      (hw : windowOf a = .pbuf b) :
      AccessEffect acc a s (s.setPbuf b (Memory.write (s.pbuf b) i d))

/-- The register whose offset is r's is the only one at it (10_state R25). -/
theorem regAt_eq_some {off : Nat} {r : Reg} (h : regAt off = some r) : off = regOffset r := by
  unfold regAt at h
  repeat' (split at h)
  all_goals simp_all [regOffset]
  all_goals subst h; rfl

theorem byteIndex_eq_mod (a : BitVec 19) : byteIndex a = a.toNat % 65536 := by
  simp [byteIndex, BitVec.extractLsb'_toNat]

theorem windowOf_eq_reg {a : BitVec 19} (h : windowOf a = .reg) : a.toNat < 0x10000 := by
  unfold windowOf at h
  split at h <;> simp_all [BitVec.extractLsb'_toNat, Nat.shiftRight_eq_div_pow]
  omega

theorem whenIdle_effect {acc : Access} {a : BitVec 19} {s t : State}
    (h : s.status.busy = false → AccessEffect acc a s t) : AccessEffect acc a s (whenIdle s t).2 := by
  unfold whenIdle
  split
  · next hb => exact .hazard hb
  · next hb => exact h (by simpa using hb)

theorem regStore_effect {a : BitVec 19} {r : Reg} (d : Word) (s : State) (hr : a = BitVec.ofNat 19 (regOffset r)) :
    AccessEffect (.write32 d) a s (regStore r d s).2 := by
  cases r
  case cmd => exact whenIdle_effect fun h => .accepted d h rfl hr
  case status => exact .statusCleared d rfl hr
  case width => exact whenIdle_effect fun h => .widthStored d h rfl hr
  case height => exact whenIdle_effect fun h => .heightStored d h rfl hr
  case len0 => exact whenIdle_effect fun h => .lenStored .bank0 d h rfl hr
  case len1 => exact whenIdle_effect fun h => .lenStored .bank1 d h rfl hr
  case irqen => exact .irqenStored d rfl hr
  all_goals exact .nothing

theorem byteRead_effect {acc : Access} {a : BitVec 19} (m : Memory 8) (cap i : Nat) (s : State) :
    AccessEffect acc a s (byteRead m cap i s).2 := by
  unfold byteRead
  split
  · next h => exact .hazardDrawByte h
  · split
    · split
      · exact .nothing
      · exact .drawByte
    · exact .nothing

theorem entryRead_effect {acc : Access} {a : BitVec 19} (i : Nat) (s : State) :
    AccessEffect acc a s (entryRead i s).2 := by
  unfold entryRead
  split
  · next h => exact .hazardDrawWord h
  · split
    · split
      · exact .nothing
      · exact .drawWord
    · exact .nothing

theorem byteWrite_effect {acc : Access} {a : BitVec 19} {cap i : Nat} {s t : State}
    (h : s.status.busy = false → i < cap → AccessEffect acc a s t) : AccessEffect acc a s (byteWrite cap i s t).2 := by
  unfold byteWrite
  split
  · next hb => exact .hazard hb
  · next hb =>
    split
    · next hi => exact h (by simpa using hb) hi
    · exact .nothing

/-- Everything a host transaction can do to the state. -/
theorem hostAccess_effect (a : BitVec 19) (acc : Access) (s : State) : AccessEffect acc a s (hostAccess a acc s).2 := by
  unfold hostAccess
  split
  · next hw =>
    cases acc <;> simp only [regAccess]
    · exact .nothing
    · split
      · unfold regRead
        split <;> exact .nothing
      · exact .nothing
    · exact .nothing
    · next d =>
      split
      · unfold regWrite
        split
        · next r hr =>
          refine regStore_effect d s ?_
          have h1 := regAt_eq_some hr
          rw [byteIndex_eq_mod] at h1
          have h2 := windowOf_eq_reg hw
          apply BitVec.eq_of_toNat_eq
          simp only [BitVec.toNat_ofNat]
          omega
        · exact .nothing
      · exact .nothing
  · next hw =>
    cases acc <;> simp only [srcAccess]
    · exact byteRead_effect _ _ _ _
    · exact .nothing
    · exact byteWrite_effect fun h hi => .srcStored _ _ h hi rfl hw
    · exact .nothing
  · next hw =>
    cases acc <;> simp only [pbufAccess]
    · exact byteRead_effect _ _ _ _
    · exact .nothing
    · exact byteWrite_effect fun h hi => .pbufStored _ _ _ h hi rfl hw
    · exact .nothing
  · cases acc <;> simp only [diffAccess]
    · exact .nothing
    · split
      · exact entryRead_effect _ _
      · exact .nothing
    · exact .nothing
    · split
      · unfold entryWrite
        split
        · next h => exact .hazard h
        · exact .nothing
      · exact .nothing

/-- Everything a host's turn can do: hand over no answer and change nothing else, or serve the transaction at its offset. -/
theorem hostTurn_cases (addr : Nat) (acc : Access) (s : State) :
    (hostTurn addr acc s = s.emit .noAnswer ∧
      (s.rstN = false ∨ offsetOf s.params addr = none)) ∨
    ∃ a t r, s.rstN = true ∧ offsetOf s.params addr = some a ∧ AccessEffect acc a s t ∧
      hostAccess a acc s = (r, t) ∧ hostTurn addr acc s = t.emit r := by
  unfold hostTurn
  split
  · next hr =>
    split
    · next a ha => exact .inr ⟨a, _, _, hr, ha, hostAccess_effect a acc s, rfl, rfl⟩
    · next ha => exact .inl ⟨rfl, .inr ha⟩
  · next hr => exact .inl ⟨rfl, .inl (by simpa using hr)⟩

/-- Everything a step can do, by the event it serves. -/
theorem step_cases (s : State) :
    (s.inbox = [] ∧ step s = engineTurn s) ∨
    (∃ rest, s.inbox = .engineTurn :: rest ∧ step s = engineTurn (s.setInbox rest)) ∨
    (∃ addr acc rest, s.inbox = .access addr acc :: rest ∧ step s = .next (hostTurn addr acc (s.setInbox rest))) ∨
    (∃ rest, s.inbox = .resetAssert :: rest ∧ step s = .next (State.enterReset (s.setInbox rest))) ∨
    (∃ rest, s.inbox = .resetRelease :: rest ∧ step s = .next ((s.setInbox rest).setRstN true)) := by
  unfold step nextEvent
  split
  · next h => exact .inl ⟨h, rfl⟩
  · next e rest h =>
    cases e
    · exact .inr (.inr (.inl ⟨_, _, _, h, rfl⟩))
    · exact .inr (.inl ⟨_, h, rfl⟩)
    · exact .inr (.inr (.inr (.inl ⟨_, h, rfl⟩)))
    · exact .inr (.inr (.inr (.inr ⟨_, h, rfl⟩)))

end Sys2Proof.Machine
end

