-- ==== Sys2Proof/Laws/Operands.lean ====
section
/-! SUPPORT. The arithmetic of the index forms, the small lemmas of the reference functions, and what an access to a register is. -/

namespace Sys2Proof.Machine

/-! ### Indices -/

/-- Every row lies in one of the pages (41_convert R116). -/
theorem page_lt_pages {H y : Nat} (h : y < H) : y / 8 < pages H := by unfold pages ceil8; omega

/-- A pixel of the bitmap lies below `srcbytes` (41_convert R127). -/
theorem srcIndex_lt_srcBytes {W H x y : Nat} (hx : x < W) (hy : y < H) : srcIndex W x y < srcBytes W H := by
  unfold srcIndex srcBytes stride ceil8
  have hb : x / 8 < (W + 7) / 8 := by omega
  have hr : (W + 7) / 8 * (y + 1) ≤ (W + 7) / 8 * H := Nat.mul_le_mul_left _ hy
  rw [Nat.mul_add, Nat.mul_one] at hr
  omega

/-- A byte of page p, column x lies below `n` (41_convert R116, R122). -/
theorem pageIndex_lt {W p x n : Nat} (hx : x < W) (hp : p < n) : p * W + x < W * n := by
  have h : W * (p + 1) ≤ W * n := Nat.mul_le_mul_left _ hp
  rw [Nat.mul_add, Nat.mul_one, Nat.mul_comm W p] at h
  omega

/-- The index of page p, column x determines both (41_convert R122: "a bijection"). -/
theorem pageIndex_injective {W p x q y : Nat} (hx : x < W) (hy : y < W) (h : p * W + x = q * W + y) : p = q ∧ x = y := by
  have h1 : (p * W + x) / W = p := by rw [Nat.mul_comm, Nat.mul_add_div (by omega)]; simp [Nat.div_eq_of_lt hx]
  have h2 : (q * W + y) / W = q := by rw [Nat.mul_comm, Nat.mul_add_div (by omega)]; simp [Nat.div_eq_of_lt hy]
  have hpq : p = q := by rw [← h1, h, h2]
  exact ⟨hpq, by rw [hpq] at h; omega⟩

/-! ### Loops that meet an unwritten byte -/

/-- A loop one of whose turns faults in every state faults. -/
theorem loop_faults {σ : Type} {f : σ → Nat → Except Fault σ} {s : σ} {n k : Nat} (hk : k < n)
    (turn : ∀ u, f u k = .error .uninitRead) : loop f s n = .error .uninitRead := by
  induction n with
  | zero => omega
  | succ n ih =>
    rw [loop_succ]
    by_cases h : k < n
    · rw [ih h]
    · have hkn : k = n := by omega
      subst hkn
      split
      · exact turn _
      · next e _ => cases e; rfl

/-! ### Reference functions -/

@[simp] theorem Memory.firstBytes_length (m : Memory 8) (n : Nat) : (Memory.firstBytes m n).length = n := by
  simp [Memory.firstBytes]

theorem Memory.firstBytes_succ (m : Memory 8) (n : Nat) :
    Memory.firstBytes m (n + 1) = Memory.firstBytes m n ++ [(Memory.read m n).getD 0] := by
  simp [Memory.firstBytes, List.range_succ]

theorem Memory.firstBytes_getElem? (m : Memory 8) {n i : Nat} (h : i < n) :
    (Memory.firstBytes m n)[i]? = some ((Memory.read m i).getD 0) := by
  simp [Memory.firstBytes, h]

/-- RefDiff of two buffers grown by one byte each. -/
theorem refDiffFrom_snoc (ps qs : List Byte) (h : ps.length = qs.length) (i : Nat) (p q : Byte) :
    refDiffFrom i (ps ++ [p]) (qs ++ [q]) =
      refDiffFrom i ps qs ++ (if p ≠ q then [⟨BitVec.ofNat 16 (i + ps.length), q⟩] else []) := by
  induction ps generalizing qs i with
  | nil => cases qs <;> simp_all [refDiffFrom]
  | cons a ps ih =>
    cases qs with
    | nil => simp at h
    | cons b qs =>
      simp at h
      simp only [List.cons_append, refDiffFrom, ih qs h]
      split <;> simp [show i + 1 + ps.length = i + (ps.length + 1) by omega]

/-- RefDiff has no more entries than the buffers have bytes (42_diff R157). -/
theorem refDiffFrom_length_le (i : Nat) (ps qs : List Byte) : (refDiffFrom i ps qs).length ≤ ps.length := by
  induction ps generalizing i qs with
  | nil => simp [refDiffFrom]
  | cons a ps ih =>
    cases qs with
    | nil => simp [refDiffFrom]
    | cons b qs =>
      have h := ih (i + 1) qs
      simp only [refDiffFrom]
      split <;> simp <;> omega

/-- The scan of written banks gives RefDiff of their bytes (42_diff R143, R144). -/
theorem scan_of_written (p q : Memory 8) (n : Nat) (hp : ∀ i < n, (Memory.read p i).isSome = true)
    (hq : ∀ i < n, (Memory.read q i).isSome = true) :
    scan p q n = .ok (refDiff (Memory.firstBytes p n) (Memory.firstBytes q n)) := by
  induction n with
  | zero => rfl
  | succ n ih =>
    have hs := ih (fun i hi => hp i (by omega)) (fun i hi => hq i (by omega))
    obtain ⟨a, ha⟩ := Option.isSome_iff_exists.1 (hp n (by omega))
    obtain ⟨b, hb⟩ := Option.isSome_iff_exists.1 (hq n (by omega))
    unfold scan refDiff at *
    rw [loop_succ, hs, Memory.firstBytes_succ, Memory.firstBytes_succ, refDiffFrom_snoc _ _ (by simp)]
    simp only [scanByte, engineRead, ha, hb, Option.getD_some, Memory.firstBytes_length, Nat.zero_add]
    split <;> simp

/-! ### Accesses to a register -/

/-- A 32-bit read at a register's offset gives its value and changes nothing (10_state R25, R26). -/
theorem hostAccess_register_read (r : Reg) (s : State) :
    hostAccess (BitVec.ofNat 19 (regOffset r)) .read32 s = (.data32 (regValue s r), s) := by
  cases r <;> rfl

/-- A 32-bit write at a register's offset is the write of that register (10_state R25, R26). -/
theorem hostAccess_register_write (r : Reg) (d : Word) (s : State) :
    hostAccess (BitVec.ofNat 19 (regOffset r)) (.write32 d) s = regStore r d s := by
  cases r <;> rfl

end Sys2Proof.Machine
end

