-- ==== Sys2Proof/Laws/PerInstr.lean ====
section
/-! SUPPORT. A law of each command as syntax: its word passes every check of 30_encoding R87, and decodes to it again. -/

namespace Sys2Proof.Laws.EncodeWellFormed

/-- The command's word is well formed (30_encoding R87) and decodes to the command (R88). -/
def Statement (i : Instr) : Prop := (encode i).wellFormed = true ∧ decode (encode i) = .ok i

/-- NOP's one word (R84). -/
theorem nop : Statement .nop := ⟨by decide, rfl⟩

/-- Both words of CONVERT (R85). -/
theorem convert (a : Bank) : Statement (.convert a) := by
  cases a <;> exact ⟨by decide, rfl⟩

/-- The four words of DIFF (R86). -/
theorem diff (a b : Bank) : Statement (.diff a b) := by
  cases a <;> cases b <;> exact ⟨by decide, rfl⟩

end Sys2Proof.Laws.EncodeWellFormed
end

