-- ==== Sys2Proof/Tests/Slice0.lean ====
section
/-! SUPPORT. The model's own tests, with expected values from spec/95_test_vectors.md or by hand from the cited rule, and for each
obligation with hypotheses a witness that meets them. -/

open Sys2Proof Sys2Proof.Machine

namespace Sys2Proof.Tests

/-! ### Helpers -/

/-- The next state of an outcome, if it is one. -/
def nextOf : Host.Outcome State Fault Refusal → Option State
  | .next t => some t
  | .fault _ => none
  | .refused _ => none

/-- The fault of an outcome, if it is one. -/
def faultOf : Host.Outcome State Fault Refusal → Option Fault
  | .next _ => none
  | .fault f => some f
  | .refused _ => none

/-- STATUS as a word after an outcome. -/
def statusAfter (o : Host.Outcome State Fault Refusal) : Option Word := (nextOf o).map fun t => t.status.word

/-- Bank b's contents after an outcome. -/
def bankAfter (b : Bank) (o : Host.Outcome State Fault Refusal) : Option (Memory 8) := (nextOf o).map fun t => t.pbuf b

/-- DIFFMEM's contents after an outcome. -/
def diffmemAfter (o : Host.Outcome State Fault Refusal) : Option (Memory 32) := (nextOf o).map fun t => t.diffmem

/-- The reset state with WIDTH, HEIGHT and SRC loaded. -/
def withBitmap (W H : BitVec 16) (bytes : List Byte) : State :=
  { State.reset with width := W, height := H, src := Memory.ofListFrom 0 bytes }

/-- The reset state with both banks loaded and LEN0, LEN1 set to their sizes. -/
def withBanks (p q : List Byte) : State :=
  { State.reset with
    pbuf0 := Memory.ofListFrom 0 p, len0 := BitVec.ofNat 17 p.length
    pbuf1 := Memory.ofListFrom 0 q, len1 := BitVec.ofNat 17 q.length }

/-- SRC of vector C9 (95_test_vectors 2.2): W = 2, H = 16, two pages. -/
def c9 : State :=
  withBitmap 2 16 [0x01, 0x00, 0x01, 0x00, 0x01, 0x00, 0x01, 0x00, 0x03, 0x02, 0x03, 0x02, 0x03, 0x02, 0x03, 0x02]

/-- Vector C10 (95_test_vectors 2.2): W = 10, H = 3, two bytes a row with padding. -/
def c10 : State := withBitmap 10 3 [0x01, 0xFC, 0x80, 0x02, 0xFF, 0xFF]

/-- The banks of vector D3 (95_test_vectors 2.3). -/
def d3 : State := withBanks [0x00, 0x11, 0x22, 0x33] [0xFF, 0x11, 0x23, 0x00]

/-- The reset state with the word w accepted. -/
def running (w : Word) : State := State.reset.accept w

/-! ### Well-formedness: one ill-formed word for each check (30_encoding R87; the words of 95_test_vectors 2.1) -/

theorem test_rsv1_refused : Word.rsv1Clear 0x00000402 = false ∧ Word.rsv1Clear 0x80000001 = false ∧
    Word.wellFormed 0x00000402 = false := by decide

theorem test_rsv0_refused : Word.rsv0Clear 0x00000012 = false ∧ Word.wellFormed 0x00000012 = false := by decide

theorem test_reserved_opcode_refused : Word.opDefined 0x00000003 = false ∧ Word.opDefined 0x0000000F = false ∧
    Word.wellFormed 0x0000000F = false := by decide

theorem test_nop_with_bank_refused : Word.nopFieldsClear 0x00000100 = false ∧ Word.nopFieldsClear 0x00000200 = false ∧
    Word.wellFormed 0x00000100 = false := by decide

theorem test_convert_with_b_refused : Word.convertFieldClear 0x00000201 = false ∧
    Word.wellFormed 0x00000201 = false := by decide

theorem test_legal_words_pass : Word.wellFormed 0 = true ∧ Word.wellFormed 0x00000101 = true ∧
    Word.wellFormed 0x00000302 = true := by decide

/-! ### Decoding: words written out bit by bit from the patterns of 30_encoding R84 to R86 -/

theorem test_decode_nop : decode 0b00000000000000000000000000000000#32 = .ok .nop := rfl

theorem test_decode_convert :
    decode 0b00000000000000000000000000000001#32 = .ok (.convert .bank0) ∧
    decode 0b00000000000000000000000100000001#32 = .ok (.convert .bank1) := ⟨rfl, rfl⟩

theorem test_decode_diff :
    decode 0b00000000000000000000000100000010#32 = .ok (.diff .bank1 .bank0) ∧
    decode 0b00000000000000000000001000000010#32 = .ok (.diff .bank0 .bank1) ∧
    decode 0b00000000000000000000001100000010#32 = .ok (.diff .bank1 .bank1) := ⟨rfl, rfl, rfl⟩

/-- 20_memory R64: the lanes of `0x00000102` in order 02, 01, 00, 00; and three bytes are no command (30_encoding R80). -/
theorem test_decode_bytes : decodeBytes [0x02, 0x01, 0x00, 0x00] = .ok (.diff .bank1 .bank0) ∧
    decodeBytes [0x02, 0x01, 0x00] = .error .notOneWord ∧ decodeTableWord 32 0x101 = some (.convert .bank1) ∧
    decodeTableWord 32 0x201 = none := ⟨rfl, rfl, rfl, rfl⟩

/-! ### The commands, one step each -/

/-- 95_test_vectors 2.1, first row. -/
theorem test_nop_status : statusAfter (step (State.reset.withFetchWord 32 0)) = some 0x02 := by decide

/-- 95_test_vectors 2.1: `0x00000201` is illegal even when WIDTH = 0. -/
theorem test_illegal_status : statusAfter (step (State.reset.withFetchWord 32 0x201)) = some 0x46 := by decide

/-- Vector C9: out = 55 00 55 FF, LEN0 = 4. -/
theorem test_convert_pages : bankAfter .bank0 (exec (.convert .bank0) c9) = some [(0, 0x55), (1, 0x00), (2, 0x55), (3, 0xFF)] ∧
    (nextOf (exec (.convert .bank0) c9)).map (fun t => t.len0) = some 4 := by decide

/-- Vector C10: out = 05 04 04 04 04 04 04 06 04 06, as `CONVERT 1`. -/
theorem test_convert_padding : bankAfter .bank1 (exec (.convert .bank1) c10) =
    some (Memory.ofListFrom 0 [0x05, 0x04, 0x04, 0x04, 0x04, 0x04, 0x04, 0x06, 0x04, 0x06]) := by decide

/-- Vector D3: DCOUNT = 3; `0x00FF0000`, `0x00230002`, `0x00000003`. -/
theorem test_diff_entries : diffmemAfter (exec (.diff .bank0 .bank1) d3) =
      some [(0, 0x00FF0000), (1, 0x00230002), (2, 0x00000003)] ∧
    (nextOf (exec (.diff .bank0 .bank1) d3)).map (fun t => t.dcount) = some 3 := by decide

/-- The banks of D3 with the operands exchanged (42_diff R143: the new byte is bank 0's, by hand). -/
theorem test_diff_exchanged : diffmemAfter (exec (.diff .bank1 .bank0) d3) =
    some [(0, 0x00000000), (1, 0x00220002), (2, 0x00330003)] := by decide

/-! ### Witnesses: decoding and the lifecycle -/

theorem witness_IllegalWordsFail : (running 0x00000003).rstN = true ∧ (running 0x00000003).pending = some 0x00000003 ∧
    Word.wellFormed 0x00000003 = false ∧ ∃ e, decode 0x00000003 = .error e := ⟨rfl, rfl, by decide, .reservedOpcode, rfl⟩

/-- The highest bit of the highest lane is bit 31. -/
theorem witness_LanesCarryTheWord : (3 < 4 ∧ 7 < 8) ∧ (Word.lane 0x80000000 3).getLsbD 7 = true := by decide

/-- With no event listed, and with the engine's turn listed first; the word may be legal or, as in the last clause, ILLEGAL. -/
theorem witness_StepRunsDecodedCommand :
    (running 0x101).rstN = true ∧ (running 0x101).pending = some 0x101 ∧ decode 0x101 = .ok (.convert .bank1) ∧
    (running 0x101).inbox = [] ∧
    ((running 0x101).setInbox [.engineTurn, .resetAssert]).inbox = .engineTurn :: [.resetAssert] ∧
    (running 3).inbox = [] ∧ statusAfter (step (running 3)) = some 0x46 := ⟨rfl, rfl, rfl, rfl, rfl, rfl, rfl⟩

theorem witness_CmdWriteAcceptsOrDrops :
    (State.reset.status.busy = false ∧ State.reset.status.haz = false) ∧
    (State.reset.setHaz.status.busy = false ∧ State.reset.setHaz.status.haz = true ∧ State.reset.setHaz.hazie = false) ∧
    (running 0x101).status.busy = true := by decide

/-- A host write of CONVERT 1 to CMD, at the offset of CMD from BASE = 0. -/
def cmdWritten : State := State.reset.setInbox [.access 0x10 (.write32 0x101)]

theorem witness_OnlyCmdWriteStartsCommand :
    ∃ t, step cmdWritten = .next t ∧ cmdWritten.pending = none ∧ t.pending = some 0x101 := ⟨_, rfl, rfl, rfl⟩

/-- BUSY rises at acceptance, and falls at a completion or at a reset. -/
theorem witness_BusyChangesOnlyByCommand :
    (∃ t, step cmdWritten = .next t ∧ cmdWritten.status.busy = false ∧ t.status.busy = true) ∧
    (∃ t, step (running 0) = .next t ∧ (running 0).status.busy = true ∧ t.status.busy = false) ∧
    (∃ t, step ((running 0).setInbox [.resetAssert]) = .next t ∧
      ((running 0).setInbox [.resetAssert]).status.busy = true ∧ t.status.busy = false) :=
  ⟨⟨_, rfl, rfl, rfl⟩, ⟨_, rfl, rfl, rfl⟩, ⟨_, rfl, rfl, rfl⟩⟩

/-- A success with DONEIE set, and a failure. -/
theorem witness_EveryCompletionSetsDone :
    (∃ t, ((running 0).setIrqen 1).rstN = true ∧ ((running 0).setIrqen 1).pending = some 0 ∧
      ((running 0).setIrqen 1).status.errv = false ∧ ((running 0).setIrqen 1).status.err = 0 ∧
      engineTurn ((running 0).setIrqen 1) = .next t ∧ t.doneie = true ∧ t.status.errv = false) ∧
    (∃ t, (running 3).rstN = true ∧ (running 3).pending = some 3 ∧ (running 3).status.errv = false ∧
      (running 3).status.err = 0 ∧ engineTurn (running 3) = .next t ∧ t.status.errv = true) :=
  ⟨⟨_, rfl, rfl, rfl, rfl, rfl, rfl, rfl⟩, ⟨_, rfl, rfl, rfl, rfl, rfl, rfl⟩⟩

theorem witness_FailedCommandChangesOnlyStatus :
    ∃ t, (running 1).rstN = true ∧ (running 1).pending = some 1 ∧ (running 1).status.errv = false ∧
      engineTurn (running 1) = .next t ∧ t.status.errv = true := ⟨_, rfl, rfl, rfl, rfl, rfl⟩

theorem witness_CommandsKeepOperandRegisters :
    (nextOf (exec .nop c9)).isSome = true ∧ (nextOf (exec (.convert .bank1) c9)).isSome = true ∧
    (nextOf (exec (.diff .bank0 .bank1) d3)).isSome = true := by decide

/-- A command pending behind a host transaction. -/
theorem witness_PendingCommandCompletes :
    ((running 1).setInbox [.access 0x14 .read32]).rstN = true ∧
    ((running 1).setInbox [.access 0x14 .read32]).pending.isSome = true := by decide

theorem witness_SafeRunsAnswerAState : SafeFor 1 (running 0) := by
  intro j hj f h
  have hcases : j = 0 ∨ j = 1 := by omega
  rcases hcases with rfl | rfl <;> cases h

/-- Both clauses: a command that completes, and one that faults, behind a dropped host write. -/
theorem witness_BusyHostCannotAffectCommand :
    (c9.accept 1).status.busy = true ∧
    (nextOf (exec (.convert .bank0) (c9.accept 1))).isSome = true ∧
    (nextOf (exec (.convert .bank0) (hostTurn 0x18 (.write32 5) (c9.accept 1)))).isSome = true ∧
    faultOf (exec (.convert .bank0) ((withBitmap 8 1 []).accept 1)) = some .uninitRead := by decide

/-- STATUS as acceptance left it, before a transaction that clears DONE, ERRV and HAZ. -/
theorem witness_BusyHostCannotAffectCommand_outcome : (c9.accept 1).status.busy = true ∧ LifecycleConsistent (c9.accept 1) ∧
    (nextOf (exec (.convert .bank0) (hostTurn 0x14 (.write32 0x0E) (c9.accept 1)))).isSome = true :=
  ⟨rfl, ⟨rfl, fun _ => ⟨rfl, rfl, rfl⟩⟩, by decide⟩

/-- A byte write to bank 0 is none in the window of bank 1. -/
theorem witness_OutputsHoldStillWhenIdle :
    ∃ t, step (d3.setInbox [.access 0x20000 (.write8 0x55)]) = .next t ∧
      (d3.setInbox [.access 0x20000 (.write8 0x55)]).pending = none ∧
      (∀ rest, (d3.setInbox [.access 0x20000 (.write8 0x55)]).inbox ≠ .resetAssert :: rest) ∧
      (∀ addr d rest a, (d3.setInbox [.access 0x20000 (.write8 0x55)]).inbox = .access addr (.write8 d) :: rest →
        offsetOf d3.params addr = some a → windowOf a ≠ .pbuf .bank1) := by
  refine ⟨_, rfl, rfl, fun _ h => (nomatch h), ?_⟩
  intro addr d rest a h ha
  cases h
  simp [offsetOf, Params.base, d3, withBanks, State.reset, Params.reference] at ha
  subst ha
  decide

/-- A write to LEN1 is none to LEN0. -/
theorem witness_OutputsHoldStillWhenIdle_len :
    (∃ t, step (d3.setInbox [.access 0x24 (.write32 9)]) = .next t ∧ t.len .bank1 = 9) ∧
    ∀ addr d rest, (d3.setInbox [.access 0x24 (.write32 9)]).inbox = .access addr (.write32 d) :: rest →
      offsetOf d3.params addr ≠ some (regAddress (lenReg .bank0)) := by
  refine ⟨⟨_, rfl, rfl⟩, ?_⟩
  intro addr d rest h ha
  cases h
  simp [offsetOf, Params.base, d3, withBanks, State.reset, Params.reference, regAddress, regOffset, lenReg] at ha

theorem witness_AcceptedNopGivesDone : State.reset.rstN = true ∧
    (BitVec.extractLsb' 0 4 (0x00000100 : Word) = 0 ∧ (0x00000100 : Word).getLsbD 8 = true) ∧
    (BitVec.extractLsb' 0 4 (0x00000200 : Word) = 0 ∧ (0x00000200 : Word).getLsbD 9 = true) := by decide

/-! ### Witnesses: CONVERT -/

/-- The last page and column, and the last pixel, are in range. -/
theorem witness_ConvertGivesPageMajorBuffer : ConvertLegal c9 ∧ AllWritten c9.src (srcBytes c9.W c9.H) ∧
    (1 < pages c9.H ∧ 1 < c9.W) ∧ 15 < c9.H := by decide

/-- C22's shape: a byte past n, and the other bank, after a next state; and a failed one. -/
theorem witness_ConvertFrame :
    (nextOf (exec (.convert .bank0) { c9 with pbuf0 := [(4, 0x77)] })).map (fun t => Memory.read t.pbuf0 4) = some (some 0x77) ∧
    ¬ 4 < outBytes c9.W c9.H ∧ Bank.bank1 ≠ Bank.bank0 ∧
    statusAfter (exec (.convert .bank0) State.reset) = some 0x16 := by decide

/-- C13 and C14: each dimension alone. -/
theorem witness_ConvertZeroDimensionFails : ((withBitmap 0 8 []).width = 0 ∧ (withBitmap 0 8 []).height ≠ 0) ∧
    (withBitmap 8 0 []).height = 0 := by decide

/-- C18 fails the source check only, C17 the output check only, and C11's sizes, at both limits, neither. -/
theorem witness_ConvertTooLargeFails :
    (srcBytes (withBitmap 8 1025 []).W (withBitmap 8 1025 []).H > Params.reference.srcCap ∧
      (withBitmap 8 1025 []).width ≠ 0 ∧ (withBitmap 8 1025 []).height ≠ 0) ∧
    (outBytes (withBitmap 1025 1 []).W (withBitmap 1025 1 []).H > Params.reference.pbufCap ∧
      srcBytes (withBitmap 1025 1 []).W (withBitmap 1025 1 []).H ≤ Params.reference.srcCap) ∧
    ConvertLegal (withBitmap 128 64 []) := by decide

/-- X4 (95_test_vectors 2.6), and the last padding byte of C10 unwritten. -/
theorem witness_ConvertFaultsOnUnwrittenSource :
    faultOf (exec (.convert .bank0) (withBitmap 8 1 [])) = some .uninitRead ∧
    ConvertLegal (withBitmap 10 3 [0x01, 0xFC, 0x80, 0x02, 0xFF]) ∧
    (∃ i < srcBytes 10 3, Memory.read (withBitmap 10 3 [0x01, 0xFC, 0x80, 0x02, 0xFF]).src i = none) := by decide

/-- C3 and C4: the same pixel, different padding. -/
theorem witness_ConvertDependsOnPixelsOnly :
    (withBitmap 1 1 [0xFF]).width = (withBitmap 1 1 [0x01]).width ∧
    (withBitmap 1 1 [0xFF]).height = (withBitmap 1 1 [0x01]).height ∧
    (withBitmap 1 1 [0xFF]).params = (withBitmap 1 1 [0x01]).params ∧
    ConvertLegal (withBitmap 1 1 [0x01]) ∧ AllWritten (withBitmap 1 1 [0x01]).src (srcBytes 1 1) ∧
    AllWritten (withBitmap 1 1 [0xFF]).src (srcBytes 1 1) ∧
    (∀ x < 1, ∀ y < 1, sourcePixel (withBitmap 1 1 [0xFF]).srcByte 1 x y = sourcePixel (withBitmap 1 1 [0x01]).srcByte 1 x y) := by
  decide

theorem witness_ConvertPartialPageIsZeroFilled : ConvertLegal c10 ∧ AllWritten c10.src (srcBytes c10.W c10.H) ∧
    c10.H % 8 ≠ 0 ∧ 9 < c10.W ∧ c10.H % 8 ≤ 7 := by decide

/-- C5: padding set, pixel clear, gives 00. -/
theorem witness_RefConvertIsClosedForm : 0 < 1 ∧ srcBytes 1 1 ≤ [(0xFE : Byte)].length ∧
    refConvert 1 1 [0xFE] = .ok [0x00] := ⟨by decide, by decide, rfl⟩

/-! ### Witnesses: DIFF -/

theorem witness_DiffStoresRefDiff : DiffLegal .bank0 .bank1 d3 ∧ AllWritten (d3.pbuf .bank0) (d3.len .bank0).toNat ∧
    AllWritten (d3.pbuf .bank1) (d3.len .bank0).toNat := by decide

/-- D3 as lists: an entry that is listed, and buffers of equal length. -/
theorem witness_RefDiffListsChangedBytes :
    [(0x00 : Byte), 0x11, 0x22, 0x33].length = [(0xFF : Byte), 0x11, 0x23, 0x00].length ∧
    [(0x00 : Byte), 0x11, 0x22, 0x33].length ≤ 65536 ∧
    { addr := 2, value := 0x23 } ∈ refDiff [0x00, 0x11, 0x22, 0x33] [0xFF, 0x11, 0x23, 0x00] := by decide

/-- A success that keeps a stale entry past DCOUNT, and D8's failure. -/
theorem witness_DiffFrame :
    (nextOf (exec (.diff .bank0 .bank1) { d3 with diffmem := [(3, 0x00990009)] })).map
      (fun t => (t.dcount, Memory.read t.diffmem 3)) = some (3, some 0x00990009) ∧
    statusAfter (exec (.diff .bank0 .bank1) { State.reset with len0 := 16, len1 := 17 }) = some 0x26 := by decide

theorem witness_DiffLengthMismatchFails :
    State.len { State.reset with len0 := 2000, len1 := 3000 } .bank0 ≠
      State.len { State.reset with len0 := 2000, len1 := 3000 } .bank1 := by decide

/-- D10's lengths, one past the limit; the limit itself is legal; and a CONVERT that changes LEN0. -/
theorem witness_DiffTooLongFails :
    (State.len { State.reset with len0 := 1025, len1 := 1025 } .bank0 = State.len { State.reset with len0 := 1025, len1 := 1025 } .bank1 ∧
      (State.len { State.reset with len0 := 1025, len1 := 1025 } .bank0).toNat > Params.reference.pbufCap) ∧
    DiffLegal .bank0 .bank1 { State.reset with len0 := 1024, len1 := 1024 } ∧
    (nextOf (exec (.convert .bank0) c9)).map (fun t => decide (t.len .bank0 ≠ c9.len .bank0)) = some true := by decide

/-- The last byte of `prev`, and the last byte of `next`, unwritten. -/
theorem witness_DiffFaultsOnUnwrittenBank :
    DiffLegal .bank0 .bank1 { State.reset with len0 := 1, len1 := 1, pbuf1 := [(0, 0)] } ∧
    faultOf (exec (.diff .bank0 .bank1) { State.reset with len0 := 1, len1 := 1, pbuf1 := [(0, 0)] }) = some .uninitRead ∧
    faultOf (exec (.diff .bank0 .bank1) { State.reset with len0 := 1, len1 := 1, pbuf0 := [(0, 0)] }) = some .uninitRead := by
  decide

/-- D5, and D4's shape: a bank with itself. -/
theorem witness_DiffOfEqualBuffersIsEmpty :
    (DiffLegal .bank0 .bank1 (withBanks [1, 2, 3] [1, 2, 3]) ∧
      AllWritten ((withBanks [1, 2, 3] [1, 2, 3]).pbuf .bank0) ((withBanks [1, 2, 3] [1, 2, 3]).len .bank0).toNat ∧
      ∀ i < 3, Memory.read ((withBanks [1, 2, 3] [1, 2, 3]).pbuf .bank1) i = Memory.read ((withBanks [1, 2, 3] [1, 2, 3]).pbuf .bank0) i) ∧
    DiffLegal .bank1 .bank1 d3 ∧ AllWritten (d3.pbuf .bank1) (d3.len .bank1).toNat := by decide

theorem witness_DiffOfZeroLengthSucceeds : (State.reset.len .bank0 = 0 ∧ State.reset.len .bank1 = 0) ∧ ConvertLegal c9 := by decide

/-- 95_test_vectors, after 2.3: applying D3's list to 00 11 22 33 gives FF 11 23 00. -/
theorem witness_DiffRoundTrip : DiffLegal .bank0 .bank1 d3 ∧ AllWritten (d3.pbuf .bank0) (d3.len .bank0).toNat ∧
    AllWritten (d3.pbuf .bank1) (d3.len .bank0).toNat ∧
    applyDiff [0x00, 0x11, 0x22, 0x33] [⟨0, 0xFF⟩, ⟨2, 0x23⟩, ⟨3, 0x00⟩] = [0xFF, 0x11, 0x23, 0x00] := by decide

/-- D6, where every byte differs, and D3, where one does not. -/
theorem witness_DiffCountIsBounded :
    (DiffLegal .bank0 .bank1 (withBanks [0, 0, 0, 0] [1, 2, 3, 4]) ∧
      (nextOf (exec (.diff .bank0 .bank1) (withBanks [0, 0, 0, 0] [1, 2, 3, 4]))).map (fun t => t.dcount) = some 4) ∧
    DiffLegal .bank0 .bank1 d3 ∧ AllWritten (d3.pbuf .bank0) (d3.len .bank0).toNat ∧
    AllWritten (d3.pbuf .bank1) (d3.len .bank0).toNat := by decide

/-- The last column of a row of 84, and S9 (95_test_vectors 1). -/
theorem witness_EntryWordAndItsPosition : 83 < 84 ∧ displayPosition 84 83 = (0, 83) ∧ displayPosition 84 84 = (1, 0) ∧
    entryWord { addr := 90, value := 0x07 } = 0x0007005A := by decide

/-! ### Witnesses: registers and host transactions -/

theorem witness_ConstantRegisters : Reg.id = .id ∧ Reg.srccap ≠ .id ∧ Reg.pbufcap ≠ .id ∧
    regValue State.reset .srccap = 0x00000400 := by decide

/-- H3 (95_test_vectors 2.4): all 17 bits of LEN0. -/
theorem witness_RegistersReadBackTheirFields : State.reset.status.busy = false ∧
    regValue (hostAccess (regAddress .len0) (.write32 0xFFFFFFFF) State.reset).2 .len0 = 0x0001FFFF ∧
    (Reg.irqen, (7 : Word)) ∈ [(Reg.width, (0xFFFF : Word)), (.irqen, 7)] := by decide

/-- The one reserved offset between registers, and the first and last of the rest. -/
theorem witness_ReservedOffsetsReadZero : BitVec.toNat (0x0000C : BitVec 19) = 0x00C ∧
    (BitVec.toNat (0x00030 : BitVec 19) % 4 = 0 ∧ 0x030 ≤ BitVec.toNat (0x00030 : BitVec 19)) ∧
    (BitVec.toNat (0x0FFFC : BitVec 19) % 4 = 0 ∧ 0x030 ≤ BitVec.toNat (0x0FFFC : BitVec 19) ∧
      BitVec.toNat (0x0FFFC : BitVec 19) < 0x10000) := by decide

/-- The last offset of each window and the first of the next. -/
theorem witness_WindowOfEveryOffset :
    ([0x0FFFF, 0x10000, 0x1FFFF, 0x20000, 0x2FFFF, 0x30000, 0x3FFFF, 0x40000, 0x7FFFF] : List (BitVec 19)).map windowOf =
      [.reg, .src, .src, .pbuf .bank0, .pbuf .bank0, .pbuf .bank1, .pbuf .bank1, .diff, .diff] ∧
    entryIndex 0x7FFFC = 65535 := by decide

/-- H5, H6, H7 (95_test_vectors 2.4) are refused; an aligned read and a byte write at the windows' edges are not. -/
theorem witness_BusErrorsChangeNothing :
    (sizeAccepted 0x00018 (.write8 0) = false ∧ sizeAccepted 0x10000 .read32 = false ∧ sizeAccepted 0x00016 .read32 = false ∧
      sizeAccepted 0x40002 .read32 = false) ∧
    sizeAccepted 0x0FFFC .read32 = true ∧ sizeAccepted 0x40000 .read32 = true ∧ sizeAccepted 0x10000 .read8 = true ∧
    sizeAccepted 0x3FFFF (.write8 0) = true := by decide

/-- A written byte, an unwritten one at the last index, and H9's index 1024. -/
theorem witness_SrcHostAccess : c9.status.busy = false ∧ windowOf 0x10000 = .src ∧
    (byteIndex 0x10008 < c9.params.srcCap ∧ Memory.read c9.src (byteIndex 0x10008) = some 0x03) ∧
    (byteIndex 0x103FF < c9.params.srcCap ∧ Memory.read c9.src (byteIndex 0x103FF) = none) ∧
    (windowOf 0x10400 = .src ∧ c9.params.srcCap ≤ byteIndex 0x10400) := by decide

theorem witness_BankHostAccess : d3.status.busy = false ∧ windowOf 0x30000 = .pbuf .bank1 ∧
    (byteIndex 0x30002 < d3.params.pbufCap ∧ Memory.read (d3.pbuf .bank1) (byteIndex 0x30002) = some 0x23) ∧
    (byteIndex 0x303FF < d3.params.pbufCap ∧ Memory.read (d3.pbuf .bank1) (byteIndex 0x303FF) = none) ∧
    (windowOf 0x30400 = .pbuf .bank1 ∧ d3.params.pbufCap ≤ byteIndex 0x30400) := by decide

theorem witness_DiffWindowHostAccess :
    (State.status { State.reset with diffmem := [(0, 0x00200003)] }).busy = false ∧ windowOf 0x40000 = .diff ∧
    BitVec.toNat (0x40000 : BitVec 19) % 4 = 0 ∧ entryIndex 0x40000 < Params.reference.pbufCap ∧
    Memory.read (State.diffmem { State.reset with diffmem := [(0, 0x00200003)] }) (entryIndex 0x40000) = some 0x00200003 ∧
    (windowOf 0x40FFC = .diff ∧ BitVec.toNat (0x40FFC : BitVec 19) % 4 = 0 ∧ entryIndex 0x40FFC < Params.reference.pbufCap ∧
      Memory.read State.reset.diffmem (entryIndex 0x40FFC) = none) ∧
    (windowOf 0x41000 = .diff ∧ BitVec.toNat (0x41000 : BitVec 19) % 4 = 0 ∧
      Params.reference.pbufCap ≤ entryIndex 0x41000) := by decide

theorem witness_IdleReadsHaveNoSideEffect : State.reset.status.busy = false ∧ (Access.read8 = .read8 ∨ Access.read8 = .read32) ∧
    (Access.read32 = .read8 ∨ Access.read32 = .read32) := by decide

/-- BUSY = 1, with an offset for each row of the table; and B1 and B9 (95_test_vectors 2.5). -/
theorem witness_BusyAccessTable : (running 1).status.busy = true ∧
    (BitVec.toNat (0x00030 : BitVec 19) % 4 = 0 ∧ BitVec.toNat (0x00030 : BitVec 19) < 0x10000) ∧
    (0x10000 ≤ BitVec.toNat (0x10000 : BitVec 19) ∧ BitVec.toNat (0x3FFFF : BitVec 19) < 0x40000) ∧
    (0x40000 ≤ BitVec.toNat (0x40000 : BitVec 19) ∧ BitVec.toNat (0x7FFFC : BitVec 19) % 4 = 0) ∧
    sizeAccepted 0x00010 (.write8 0) = false ∧
    (hostAccess 0x00018 (.write32 5) (c9.accept 1)).2.width = 2 ∧
    (hostAccess 0x00018 (.write32 5) (c9.accept 1)).2.status.haz = true ∧
    (hostAccess 0x00010 (.write8 0) (c9.accept 1)).2.status.haz = false := by decide

theorem witness_BusyAccessTable_reserved : ∀ r, (0x00030 : BitVec 19) ≠ regAddress r := by
  intro r
  cases r <;> simp [regAddress, regOffset]

/-- The last offset of the window, and the addresses just outside it, at a BASE other than 0. -/
theorem witness_PlatformAddressDecode :
    0x7FFFF < 0x80000 ∧ offsetOf { Params.reference with baseBlock := 2 } 0x17FFFF = some 0x7FFFF ∧
    offsetOf { Params.reference with baseBlock := 2 } 0x180000 = none ∧
    offsetOf { Params.reference with baseBlock := 2 } 0xFFFFF = none := by
  simp [offsetOf, Params.base]

/-- A transaction inside the window, and one outside, while out of reset. -/
theorem witness_PlatformAddressDecode_step :
    cmdWritten.inbox = .access 0x10 (.write32 0x101) :: [] ∧ cmdWritten.rstN = true ∧ cmdWritten.params = Params.reference ∧
    offsetOf Params.reference 0x10 = some (regAddress .cmd) ∧ offsetOf Params.reference 0x80000 = none := by
  refine ⟨rfl, rfl, rfl, ?_⟩
  simp [offsetOf, Params.base, Params.reference, regAddress, regOffset]

/-- One operation for each kind of answer: an unbacked byte, a register, a write. -/
theorem witness_HostNotationTransactions :
    (hostTransaction (.rd8 .src 1024) = some (0x10400, .read8) ∧ 0x10400 < 0x80000 ∧
      hostAccess 0x10400 .read8 State.reset = (.data8 0, State.reset)) ∧
    hostAccess 0x00000 .read32 State.reset = (.data32 0x58424E01, State.reset) ∧
    (∃ t, hostAccess 0x00010 (.write32 0) State.reset = (.ack, t)) ∧
    fill .src 0 2 0xFF = [.wr8 .src 0 0xFF, .wr8 .src 1 0xFF] :=
  ⟨⟨rfl, by decide, rfl⟩, rfl, ⟨_, rfl⟩, rfl⟩

/-! ### Witnesses: reset and the invariants -/

theorem witness_ResetState : State.reset = State.reset ∧
    ∃ t : State, { (running 1).enterReset with rstN := true } = { State.enterReset t with rstN := true } := ⟨rfl, running 1, rfl⟩

/-- Reset of a running command, and each kind of event while `rst_n` is low. -/
theorem witness_ResetAbandonsEverything :
    ((running 1).setInbox [.resetAssert, .resetRelease]).inbox = .resetAssert :: [.resetRelease] ∧
    (∀ es : List Event, (State.reset.enterReset.setInbox es).rstN = false ∧ (State.reset.enterReset.setInbox es).inbox = es) :=
  ⟨rfl, fun _ => ⟨rfl, rfl⟩⟩

/-- A state with SRC and BUSY set that meets the invariants, takes a step, and is not the reset state. -/
theorem witness_invariants : LifecycleConsistent (c9.accept 1) ∧ ErrorCodeLegal (c9.accept 1) ∧ QuietInReset (c9.accept 1) ∧
    MemoriesCanonical (c9.accept 1) ∧ (∃ t, step (c9.accept 1) = .next t) := by
  refine ⟨⟨rfl, fun _ => ⟨rfl, rfl, rfl⟩⟩, ⟨fun h => (nomatch h), fun _ => rfl⟩, fun h => (nomatch h), ?_, _, rfl⟩
  unfold MemoriesCanonical
  decide

/-- An error recorded: ERRV = 1 with a code. -/
theorem witness_StepKeepsErrorCodeLegal : ErrorCodeLegal (State.reset.failed .illegalCommand) ∧
    (State.reset.failed .illegalCommand).status.errv = true ∧
    ∃ t, step (State.reset.failed .illegalCommand) = .next t :=
  ⟨⟨fun _ => ⟨.illegalCommand, rfl⟩, fun h => (nomatch h)⟩, rfl, _, rfl⟩

/-- One entry stored, and a DIFF about to run. -/
theorem witness_StepKeepsFrameDiffStored :
    FrameDiffStored ({ d3 with diffmem := [(0, 0x00200003)], dcount := 1 }.accept 0x202) ∧
    ∃ t, step ({ d3 with diffmem := [(0, 0x00200003)], dcount := 1 }.accept 0x202) = .next t := by
  refine ⟨⟨by decide, ?_, ?_, ?_⟩, _, rfl⟩
  · intro i hi
    have h0 : i = 0 := by change i < 1 at hi; omega
    subst h0
    exact ⟨_, rfl, by decide⟩
  · intro i j v w hij hj
    change j < 1 at hj
    omega
  · intro i w h
    change (if i = 0 then some (0x00200003 : Word) else none) = some w at h
    split at h <;> cases h
    decide

/-- While `rst_n` is low. -/
theorem witness_StepKeepsQuietInReset : QuietInReset State.reset.enterReset ∧ State.reset.enterReset.rstN = false ∧
    ∃ t, step State.reset.enterReset = .next t := ⟨fun _ => rfl, rfl, _, rfl⟩

end Sys2Proof.Tests
end

/-! PROOFS. 10_state: the registers of the REG window, what every step keeps, and what moves BUSY. -/

namespace Sys2Proof.Machine

/-! ### Commands that complete -/

/-- The writes a successful command can hand to its commit (40_command R103), with what its checks and its computation found:
none for NOP, the buffer of a legal CONVERT, the entries of a legal DIFF. -/
inductive CommandWrites (s : State) : List EngineWrite → Prop where
  | nop : CommandWrites s []
  | convert (a : Bank) (out : Memory 8) (legal : ConvertLegal s) (hout : convertBuffer s.src s.W s.H = .ok out) :
      CommandWrites s (convertWrites a s.W s.H out)
  | diff (a b : Bank) (es : List DiffEntry) (legal : DiffLegal a b s)
      (hes : scan (s.pbuf a) (s.pbuf b) (s.len a).toNat = .ok es) : CommandWrites s (diffWrites es)

theorem commandWrites_of_convertCmd {a : Bank} {s : State} {ws : List EngineWrite} (h : convertCmd a s = .ok (.ok ws)) :
    CommandWrites s ws := by
  simp only [convertCmd] at h
  split at h
  · simp at h
  · next hdim =>
    split at h
    · simp at h
    · next hsrc =>
      split at h
      · simp at h
      · next hcap =>
        split at h
        · simp at h
        · next out hout =>
          simp only [Except.ok.injEq] at h
          have legal : ConvertLegal s := by
            unfold ConvertLegal State.W State.H
            omega
          exact h ▸ .convert a out legal hout

theorem commandWrites_of_diffCmd {a b : Bank} {s : State} {ws : List EngineWrite} (h : diffCmd a b s = .ok (.ok ws)) :
    CommandWrites s ws := by
  simp only [diffCmd] at h
  split at h
  · simp at h
  · next hlen =>
    split at h
    · simp at h
    · next hcap =>
      split at h
      · simp at h
      · next es hes =>
        simp only [Except.ok.injEq] at h
        exact h ▸ .diff a b es ⟨not_not.1 hlen, Nat.le_of_not_gt hcap⟩ hes

/-- Everything a command can do with a next state: the writes its checks allow, or an error and nothing else. -/
theorem exec_eq_next {i : Instr} {s t : State} (h : exec i s = .next t) :
    (∃ ws, CommandWrites s ws ∧ t = (performWrites ws s).complete) ∨ ∃ e, t = (s.recordError e).complete := by
  cases i with
  | nop =>
    have h : finish (.ok (.ok [])) s = .next t := h
    obtain ⟨ws, hws, rfl⟩ | ⟨e, -, rfl⟩ := finish_eq_next.1 h
    · cases hws
      exact .inl ⟨_, .nop, rfl⟩
    · exact .inr ⟨e, rfl⟩
  | convert a =>
    obtain ⟨ws, hws, rfl⟩ | ⟨e, -, rfl⟩ := finish_eq_next.1 h
    · exact .inl ⟨ws, commandWrites_of_convertCmd hws, rfl⟩
    · exact .inr ⟨e, rfl⟩
  | diff a b =>
    obtain ⟨ws, hws, rfl⟩ | ⟨e, -, rfl⟩ := finish_eq_next.1 h
    · exact .inl ⟨ws, commandWrites_of_diffCmd hws, rfl⟩
    · exact .inr ⟨e, rfl⟩

/-- The same for any pending word, an illegal one included (40_command R103, R107). -/
theorem runWord_eq_next {w : Word} {s t : State} (h : runWord w s = .next t) :
    (∃ ws, CommandWrites s ws ∧ t = (performWrites ws s).complete) ∨ ∃ e, t = (s.recordError e).complete := by
  unfold runWord at h
  split at h
  · exact exec_eq_next h
  · obtain ⟨ws, hws, -⟩ | ⟨e, -, rfl⟩ := finish_eq_next.1 h
    · simp at hws
    · exact .inr ⟨e, rfl⟩

/-! ### The step, once for every invariant -/

/-- What a predicate must survive to be kept by every step: the event list, an answer, both edges of reset, and, out of reset,
a host transaction and a command's completion. -/
structure KeptByEvents (P : State → Prop) : Prop where
  setInbox : ∀ s es, P s → P (s.setInbox es)
  emit : ∀ s r, P s → P (s.emit r)
  enterReset : ∀ s, P s → P s.enterReset
  release : ∀ s, P s → P (s.setRstN true)
  access : ∀ acc a s t, s.rstN = true → AccessEffect acc a s t → P s → P t
  commit : ∀ s ws, s.rstN = true → CommandWrites s ws → P s → P (performWrites ws s).complete
  error : ∀ s e, s.rstN = true → P s → P (s.recordError e).complete

section
variable {P : State → Prop} (hP : KeptByEvents P) {s t : State}
include hP

theorem KeptByEvents.engineTurn (hs : P s) (h : engineTurn s = .next t) : P t := by
  obtain ⟨hstay, -⟩ | ⟨w, r, -, hrst, hrun, -⟩ := engineTurn_cases s
  · rw [hstay] at h
    cases h
    exact hs
  · rw [hrun] at h
    obtain ⟨ws, hws, rfl⟩ | ⟨e, rfl⟩ := runWord_eq_next h
    · exact hP.commit s ws hrst hws hs
    · exact hP.error s e hrst hs

theorem KeptByEvents.hostTurn (addr : Nat) (acc : Access) (hs : P s) : P (hostTurn addr acc s) := by
  obtain ⟨heq, -⟩ | ⟨a, t, r, hrst, -, heff, -, heq⟩ := hostTurn_cases addr acc s
  · exact heq ▸ hP.emit s _ hs
  · exact heq ▸ hP.emit t r (hP.access acc a s t hrst heff hs)

theorem KeptByEvents.step (hs : P s) (h : step s = .next t) : P t := by
  obtain ⟨-, heq⟩ | ⟨rest, -, heq⟩ | ⟨addr, acc, rest, -, heq⟩ | ⟨rest, -, heq⟩ | ⟨rest, -, heq⟩ := step_cases s <;>
    rw [heq] at h
  · exact hP.engineTurn hs h
  · exact hP.engineTurn (hP.setInbox s rest hs) h
  · cases h
    exact hP.hostTurn addr acc (hP.setInbox s rest hs)
  · cases h
    exact hP.enterReset _ (hP.setInbox s rest hs)
  · cases h
    exact hP.release _ (hP.setInbox s rest hs)

end

/-! ### The memories stay canonical (10_state R44 to R46, 20_memory R72) -/

theorem Memory.lt_of_mem_within {w cap : Nat} {m : Memory w} {c : Nat × BitVec w} (h : Memory.within cap m = true)
    (hc : c ∈ m) : c.1 < cap := by
  simpa using List.all_eq_true.1 h c hc

theorem stage2Byte_within {inter out out' : Memory 8} {W H band col : Nat} (hband : band < pages H) (hcol : col < W)
    (hout : Memory.within (outBytes W H) out = true) (h : stage2Byte inter W H band out col = .ok out') :
    Memory.within (outBytes W H) out' = true := by
  unfold stage2Byte at h
  split at h
  · cases h
  · cases h
    exact Memory.within_write out (pageIndex_lt hcol hband) _ hout

/-- A CONVERT's buffer has no index at or above n (41_convert R122). -/
theorem convertBuffer_within {src out : Memory 8} {W H : Nat} (h : convertBuffer src W H = .ok out) :
    Memory.within (outBytes W H) out = true := by
  unfold convertBuffer at h
  split at h
  · cases h
  · exact loop_invariant (fun _ m => Memory.within (outBytes W H) m = true) rfl
      (fun band _ _ hband hm hrow => loop_invariant (fun _ m => Memory.within (outBytes W H) m = true) hm
        (fun col _ _ hcol => stage2Byte_within hband hcol) hrow) h

/-- What a scan of n addresses has found: at most n entries, their addresses below n and strictly rising (42_diff R147, R157). -/
def ScannedBelow (n : Nat) (es : List DiffEntry) : Prop :=
  es.length ≤ n ∧ (∀ e ∈ es, e.addr.toNat < n) ∧ es.Pairwise fun d e => d.addr < e.addr

theorem ScannedBelow.mono {n k : Nat} {es : List DiffEntry} (h : ScannedBelow n es) (hk : n ≤ k) : ScannedBelow k es := by
  obtain ⟨hlen, haddr, hrise⟩ := h
  exact ⟨hlen.trans hk, fun e he => (haddr e he).trans_le hk, hrise⟩

/-- Appending the entry of address n, where 16 bits hold it. -/
theorem ScannedBelow.snoc {n : Nat} {es : List DiffEntry} (h : ScannedBelow n es) (hn : n < 65536) (v : Byte) :
    ScannedBelow (n + 1) (es ++ [⟨BitVec.ofNat 16 n, v⟩]) := by
  obtain ⟨hlen, haddr, hrise⟩ := h
  have hval : (BitVec.ofNat 16 n).toNat = n := by simp [Nat.mod_eq_of_lt hn]
  refine ⟨by simpa using hlen, ?_, List.pairwise_append.2 ⟨hrise, by simp, ?_⟩⟩
  · intro e he
    obtain he | he := List.mem_append.1 he
    · exact (haddr e he).trans (Nat.lt_succ_self n)
    · rw [List.mem_singleton.1 he, hval]
      exact Nat.lt_succ_self n
  · intro d hd e he
    rw [List.mem_singleton.1 he, BitVec.lt_def, hval]
    exact haddr d hd

theorem scanByte_scannedBelow {prev next : Memory 8} {n : Nat} {es es' : List DiffEntry} (hn : n < 65536)
    (hes : ScannedBelow n es) (h : scanByte prev next es n = .ok es') : ScannedBelow (n + 1) es' := by
  unfold scanByte at h
  split at h
  · cases h
  · split at h
    · cases h
    · cases h
      split
      · exact hes.snoc hn _
      · exact hes.mono (Nat.le_succ n)

theorem scan_scannedBelow {prev next : Memory 8} {n : Nat} {es : List DiffEntry} (hn : n ≤ 65536)
    (h : scan prev next n = .ok es) : ScannedBelow n es :=
  loop_invariant ScannedBelow ⟨by simp, by simp, by simp⟩
    (fun _ _ _ hk => scanByte_scannedBelow (Nat.lt_of_lt_of_le hk hn)) h

/-- A capacity is at most 65536 (00_scope R8, R9). -/
theorem pbufCap_le (p : Params) : p.pbufCap ≤ 65536 := p.pbufTop.isLt

/-- The entries a legal DIFF finds. -/
theorem DiffLegal.scannedBelow {a b : Bank} {s : State} {es : List DiffEntry} (legal : DiffLegal a b s)
    (hes : scan (s.pbuf a) (s.pbuf b) (s.len a).toNat = .ok es) : ScannedBelow s.params.pbufCap es :=
  (scan_scannedBelow (legal.2.trans (pbufCap_le s.params)) hes).mono legal.2

/-- A write of a commit stays below the capacity of the banks and of DIFFMEM. -/
def EngineWrite.Fits (cap : Nat) : EngineWrite → Prop
  | .pbuf _ i _ => i < cap
  | .diffmem i _ => i < cap
  | .len _ _ => True
  | .dcount _ => True

theorem entryWrites_fit {es : List DiffEntry} {i cap : Nat} (h : i + es.length ≤ cap) :
    ∀ w ∈ entryWrites i es, w.Fits cap := by
  induction es generalizing i with
  | nil => simp [entryWrites]
  | cons e es ih =>
    rw [List.length_cons] at h
    rw [entryWrites, List.forall_mem_cons]
    exact ⟨show i < cap by omega, ih (by omega)⟩

/-- No command writes at or above PBUF_CAP (41_convert R119, 42_diff R142, R157). -/
theorem CommandWrites.fit {s : State} {ws : List EngineWrite} (h : CommandWrites s ws) :
    ∀ w ∈ ws, w.Fits s.params.pbufCap := by
  cases h with
  | nop => simp
  | convert a out legal hout =>
    obtain ⟨-, -, -, hcap⟩ := legal
    rw [convertWrites, List.forall_mem_append, List.forall_mem_map, List.forall_mem_singleton]
    exact ⟨fun c hc => (Memory.lt_of_mem_within (convertBuffer_within hout) hc).trans_le hcap, trivial⟩
  | diff a b es legal hes =>
    obtain ⟨hlen, -, -⟩ := legal.scannedBelow hes
    rw [diffWrites, List.forall_mem_append, List.forall_mem_singleton]
    exact ⟨entryWrites_fit (by omega), trivial⟩

theorem MemoriesCanonical.pbuf {s : State} (h : MemoriesCanonical s) (b : Bank) :
    Memory.wf (s.pbuf b) = true ∧ Memory.within s.params.pbufCap (s.pbuf b) = true := by
  obtain ⟨-, hbank0, hbank1, -⟩ := h
  cases b
  · exact hbank0
  · exact hbank1

theorem MemoriesCanonical.writeSrc {s : State} (h : MemoriesCanonical s) {i : Nat} (hi : i < s.params.srcCap) (v : Byte) :
    MemoriesCanonical (s.setSrc (Memory.write s.src i v)) := by
  obtain ⟨⟨hwf, hin⟩, hbanks⟩ := h
  exact ⟨⟨Memory.wf_write _ i v hwf, Memory.within_write _ hi v hin⟩, hbanks⟩

theorem MemoriesCanonical.writePbuf {s : State} (h : MemoriesCanonical s) (b : Bank) {i : Nat} (hi : i < s.params.pbufCap)
    (v : Byte) : MemoriesCanonical (s.setPbuf b (Memory.write (s.pbuf b) i v)) := by
  have hnew := h.pbuf b
  have hwrite := And.intro (Memory.wf_write _ i v hnew.1) (Memory.within_write _ hi v hnew.2)
  obtain ⟨hsrc, hbank0, hbank1, hdiff⟩ := h
  cases b
  · exact ⟨hsrc, hwrite, hbank1, hdiff⟩
  · exact ⟨hsrc, hbank0, hwrite, hdiff⟩

theorem MemoriesCanonical.writeDiffmem {s : State} (h : MemoriesCanonical s) {i : Nat} (hi : i < s.params.pbufCap)
    (w : Word) : MemoriesCanonical (s.setDiffmem (Memory.write s.diffmem i w)) := by
  obtain ⟨hsrc, hbank0, hbank1, hwf, hin⟩ := h
  exact ⟨hsrc, hbank0, hbank1, Memory.wf_write _ i w hwf, Memory.within_write _ hi w hin⟩

theorem MemoriesCanonical.applyWrite {s : State} {w : EngineWrite} (h : MemoriesCanonical s)
    (hw : w.Fits s.params.pbufCap) : MemoriesCanonical (applyWrite s w) := by
  cases w with
  | pbuf b i v => exact h.writePbuf b hw v
  | len b n => cases b <;> exact h
  | diffmem i v => exact h.writeDiffmem hw v
  | dcount k => exact h

theorem MemoriesCanonical.performWrites {s : State} {ws : List EngineWrite} (h : MemoriesCanonical s)
    (hws : ∀ w ∈ ws, w.Fits s.params.pbufCap) : MemoriesCanonical (performWrites ws s) := by
  induction ws generalizing s with
  | nil => exact h
  | cons w ws ih =>
    obtain ⟨hw, hws⟩ := List.forall_mem_cons.1 hws
    exact ih (h.applyWrite hw) (by simpa using hws)

theorem MemoriesCanonical.access {acc : Access} {a : BitVec 19} {s t : State} (h : MemoriesCanonical s)
    (heff : AccessEffect acc a s t) : MemoriesCanonical t := by
  cases heff with
  | srcStored i d _ hi => exact h.writeSrc hi d
  | pbufStored b i d _ hi => exact h.writePbuf b hi d
  | lenStored b => cases b <;> exact h
  | _ => exact h

theorem memoriesCanonical_enterReset (s : State) : MemoriesCanonical s.enterReset := by
  simp [MemoriesCanonical, Memory.wf, Memory.within]

theorem memoriesCanonical_kept : KeptByEvents MemoriesCanonical where
  setInbox _ _ h := h
  emit _ _ h := h
  enterReset s _ := memoriesCanonical_enterReset s
  release _ h := h
  access _ _ _ _ _ heff h := h.access heff
  commit _ _ _ hws h := h.performWrites hws.fit
  error _ _ _ h := h

/-- Settles O55: every store of the host and of a commit is below its memory's capacity. -/
theorem stepKeepsMemoriesCanonical : Obligations.StepKeepsMemoriesCanonical :=
  fun _ _ => memoriesCanonical_kept.step

/-! ### BUSY, PENDING, DONE and ERRV agree (10_state R33 to R35, R49) -/

theorem lifecycleConsistent_of_completed {s : State} (hbusy : s.status.busy = false) (hpending : s.pending = none) :
    LifecycleConsistent s := by
  simp [LifecycleConsistent, hbusy, hpending]

theorem LifecycleConsistent.access {acc : Access} {a : BitVec 19} {s t : State} (h : LifecycleConsistent s)
    (heff : AccessEffect acc a s t) : LifecycleConsistent t := by
  cases heff with
  | accepted d => exact ⟨rfl, fun _ => ⟨rfl, rfl, rfl⟩⟩
  | statusCleared d =>
    obtain ⟨hpending, hclear⟩ := h
    refine ⟨hpending, fun hbusy => ?_⟩
    obtain ⟨hdone, herrv, herr⟩ := hclear hbusy
    simp [Status.writeOneToClear, hdone, herrv, herr]
  | lenStored b => cases b <;> exact h
  | pbufStored b => cases b <;> exact h
  | _ => exact h

theorem lifecycleConsistent_kept : KeptByEvents LifecycleConsistent where
  setInbox _ _ h := h
  emit _ _ h := h
  enterReset _ _ := lifecycleConsistent_of_completed rfl rfl
  release _ h := h
  access _ _ _ _ _ heff h := h.access heff
  commit _ _ _ _ _ := lifecycleConsistent_of_completed rfl rfl
  error _ _ _ _ := lifecycleConsistent_of_completed rfl rfl

/-- Settles O56: acceptance sets BUSY with a clean outcome, a completion and reset clear it with PENDING. -/
theorem stepKeepsLifecycleConsistent : Obligations.StepKeepsLifecycleConsistent :=
  fun _ _ => lifecycleConsistent_kept.step

/-! ### What a write to STATUS leaves (10_state R32 to R36) -/

/-- The fields of STATUS after a write of d: those whose bit is set are cleared. -/
theorem Status.writeOneToClear_eq (t : Status) (d : Word) :
    t.writeOneToClear d =
      { busy := t.busy
        done := if d.getLsbD 1 then false else t.done
        errv := if d.getLsbD 2 then false else t.errv
        haz := if d.getLsbD 3 then false else t.haz
        err := if d.getLsbD 2 then 0 else t.err } := by
  have hclear : ∀ b c : Bool, (b && !c) = if c then false else b := by decide
  simp only [Status.writeOneToClear, hclear]

/-! ### ERR is a legal code (10_state R37, 60_exceptions R161) -/

theorem errorCodeLegal_of_no_error {s : State} (herrv : s.status.errv = false) (herr : s.status.err = 0) :
    ErrorCodeLegal s := by
  simp [ErrorCodeLegal, herrv, herr]

/-- Only ERRV and ERR matter. -/
theorem ErrorCodeLegal.of_eq {s t : State} (h : ErrorCodeLegal s) (herrv : t.status.errv = s.status.errv)
    (herr : t.status.err = s.status.err) : ErrorCodeLegal t := by
  unfold ErrorCodeLegal at *
  rwa [herrv, herr]

theorem ErrorCodeLegal.writeOneToClear {s : State} (h : ErrorCodeLegal s) (d : Word) :
    ErrorCodeLegal (s.setStatus (s.status.writeOneToClear d)) := by
  rw [Status.writeOneToClear_eq]
  by_cases hd : d.getLsbD 2 = true
  · exact errorCodeLegal_of_no_error (if_pos hd) (if_pos hd)
  · exact h.of_eq (if_neg hd) (if_neg hd)

theorem ErrorCodeLegal.access {acc : Access} {a : BitVec 19} {s t : State} (h : ErrorCodeLegal s)
    (heff : AccessEffect acc a s t) : ErrorCodeLegal t := by
  cases heff with
  | accepted d => exact errorCodeLegal_of_no_error rfl rfl
  | statusCleared d => exact h.writeOneToClear d
  | lenStored b => cases b <;> exact h
  | pbufStored b => cases b <;> exact h
  | _ => exact h

theorem errorCodeLegal_kept : KeptByEvents ErrorCodeLegal where
  setInbox _ _ h := h
  emit _ _ h := h
  enterReset _ _ := errorCodeLegal_of_no_error rfl rfl
  release _ h := h
  access _ _ _ _ _ heff h := h.access heff
  commit _ _ _ _ h := h.of_eq (by simp) (by simp)
  error _ e _ _ := ⟨fun _ => ⟨e, rfl⟩, fun herrv => by simp at herrv⟩

/-- Settles O57: ERRV and its code are set together by an error and cleared together by acceptance, by bit 2 of a STATUS write
and by reset. -/
theorem stepKeepsErrorCodeLegal : Obligations.StepKeepsErrorCodeLegal :=
  fun _ _ => errorCodeLegal_kept.step

/-! ### DIFFMEM's first DCOUNT entries are a FrameDiff (42_diff R147, R157) -/

/-- An entry word, bit by bit (20_memory R67). -/
theorem entryWord_getLsbD (e : DiffEntry) (i : Nat) :
    (entryWord e).getLsbD i = if i < 16 then e.addr.getLsbD i else e.value.getLsbD (i - 16) := by
  simp only [entryWord, BitVec.getLsbD_or, BitVec.getLsbD_shiftLeft, BitVec.getLsbD_setWidth]
  split
  · next h => simp [h, show i < 32 by omega]
  · next h =>
    by_cases hi : i < 32
    · simp [hi, h, show i - 16 < 32 by omega, BitVec.getLsbD_of_ge e.addr i (by omega)]
    · simp [hi, BitVec.getLsbD_of_ge e.value (i - 16) (by omega)]

/-- An entry word holds its entry again (20_memory R67). -/
@[simp] theorem entryOf_entryWord (e : DiffEntry) : entryOf (entryWord e) = e := by
  have haddr : (entryWord e).extractLsb' 0 16 = e.addr := by
    ext i hi
    simp [entryWord_getLsbD, hi]
  have hvalue : (entryWord e).extractLsb' 16 8 = e.value := by
    ext i hi
    simp [entryWord_getLsbD, hi]
  rw [entryOf, haddr, hvalue]

/-- Bits [31:24] of an entry word are 0 (20_memory R67). -/
@[simp] theorem entryWord_topByte (e : DiffEntry) : (entryWord e).extractLsb' 24 8 = 0 := by
  ext i hi
  have hlow : ¬ 24 + i < 16 := by omega
  have hhigh : 8 ≤ 24 + i - 16 := by omega
  simp [entryWord_getLsbD, hlow, BitVec.getLsbD_of_ge e.value _ hhigh]

/-- Only the parameters, DCOUNT and DIFFMEM matter. -/
theorem FrameDiffStored.of_eq {s t : State} (h : FrameDiffStored s) (hparams : t.params = s.params)
    (hdcount : t.dcount = s.dcount) (hdiffmem : t.diffmem = s.diffmem) : FrameDiffStored t := by
  unfold FrameDiffStored at *
  rwa [hparams, hdcount, hdiffmem]

theorem frameDiffStored_of_dcount_zero {s : State} (hdcount : s.dcount = 0) (hdiffmem : s.diffmem = []) :
    FrameDiffStored s := by
  simp [FrameDiffStored, hdcount, hdiffmem]

theorem performWrites_diffWrites (es : List DiffEntry) (s : State) :
    performWrites (diffWrites es) s =
      (performWrites (entryWrites 0 es) s).setDcount (BitVec.ofNat 17 es.length) := by
  rw [diffWrites, performWrites_append]
  rfl

/-- The entries of a scan, committed over a DIFFMEM whose entries have clear top bytes, are the stored FrameDiff. -/
theorem ScannedBelow.frameDiffStored {es : List DiffEntry} {s : State} (hes : ScannedBelow s.params.pbufCap es)
    (htop : ∀ i w, Memory.read s.diffmem i = some w → w.extractLsb' 24 8 = 0) :
    FrameDiffStored (performWrites (diffWrites es) s) := by
  obtain ⟨hlen, haddr, hrise⟩ := hes
  have hcount : (BitVec.ofNat 17 es.length).toNat = es.length := by
    have := pbufCap_le s.params
    simp only [BitVec.toNat_ofNat]
    omega
  have hread : ∀ k (hk : k < es.length),
      Memory.read (performWrites (entryWrites 0 es) s).diffmem k = some (entryWord es[k]) := by
    intro k hk
    simp [read_entryWrites, hk]
  rw [performWrites_diffWrites]
  simp only [FrameDiffStored, State.setDcount_dcount, State.setDcount_params, State.setDcount_diffmem,
    performWrites_params, hcount]
  refine ⟨hlen, ?_, ?_, ?_⟩
  · intro i hi
    exact ⟨_, hread i hi, by simpa using haddr _ (List.getElem_mem hi)⟩
  · intro i j v w hij hj hv hw
    rw [hread i (hij.trans hj), Option.some.injEq] at hv
    rw [hread j hj, Option.some.injEq] at hw
    subst hv hw
    simpa using List.pairwise_iff_getElem.1 hrise i j (hij.trans hj) hj hij
  · intro i w hw
    by_cases hi : i < es.length
    · rw [hread i hi, Option.some.injEq] at hw
      exact hw ▸ entryWord_topByte es[i]
    · rw [read_entryWrites, if_neg (by omega)] at hw
      exact htop i w hw

theorem FrameDiffStored.performWrites {s : State} {ws : List EngineWrite} (h : FrameDiffStored s)
    (hws : CommandWrites s ws) : FrameDiffStored (performWrites ws s) := by
  cases hws with
  | nop => exact h
  | convert a out =>
    rw [convertWrites, performWrites_append, performWrites_pbuf]
    exact h.of_eq (by simp) (by simp [applyWrite]) (by simp [applyWrite])
  | diff a b es legal hes =>
    obtain ⟨-, -, -, htop⟩ := h
    exact (legal.scannedBelow hes).frameDiffStored htop

/-- No host transaction writes DIFFMEM or DCOUNT (10_state R41, R46). -/
theorem AccessEffect.diff_outputs {acc : Access} {a : BitVec 19} {s t : State} (h : AccessEffect acc a s t) :
    t.params = s.params ∧ t.dcount = s.dcount ∧ t.diffmem = s.diffmem := by
  cases h <;> simp

theorem FrameDiffStored.access {acc : Access} {a : BitVec 19} {s t : State} (h : FrameDiffStored s)
    (heff : AccessEffect acc a s t) : FrameDiffStored t := by
  obtain ⟨hparams, hdcount, hdiffmem⟩ := heff.diff_outputs
  exact h.of_eq hparams hdcount hdiffmem

theorem frameDiffStored_kept : KeptByEvents FrameDiffStored where
  setInbox _ _ h := h
  emit _ _ h := h
  enterReset _ _ := frameDiffStored_of_dcount_zero rfl rfl
  release _ h := h
  access _ _ _ _ _ heff h := h.access heff
  commit _ _ _ hws h := h.performWrites hws
  error _ _ _ h := h

/-- Settles O58: only a DIFF's commit writes DIFFMEM and DCOUNT, and it stores the entries of a scan. -/
theorem stepKeepsFrameDiffStored : Obligations.StepKeepsFrameDiffStored :=
  fun _ _ => frameDiffStored_kept.step

/-! ### What moves BUSY (10_state R33) -/

theorem AccessEffect.busy_rises {acc : Access} {a : BitVec 19} {s t : State} (h : AccessEffect acc a s t)
    (hs : s.status.busy = false) (ht : t.status.busy = true) :
    ∃ w, acc = .write32 w ∧ a = regAddress .cmd ∧ t.pending = some w := by
  cases h with
  | accepted d _ hacc ha => exact ⟨d, hacc, ha, rfl⟩
  | _ => simp [Status.writeOneToClear, hs] at ht

theorem AccessEffect.busy_stays {acc : Access} {a : BitVec 19} {s t : State} (h : AccessEffect acc a s t)
    (hs : s.status.busy = true) : t.status.busy = true := by
  cases h <;> simp [Status.writeOneToClear, hs]

/-- A host's turn sets BUSY only by accepting a command. -/
theorem hostTurn_busy_rises {addr : Nat} {acc : Access} {s : State} (hs : s.status.busy = false)
    (ht : (hostTurn addr acc s).status.busy = true) :
    ∃ w, acc = .write32 w ∧ offsetOf s.params addr = some (regAddress .cmd) ∧
      (hostTurn addr acc s).pending = some w := by
  obtain ⟨heq, -⟩ | ⟨a, t, r, -, ha, heff, -, heq⟩ := hostTurn_cases addr acc s <;> rw [heq] at ht ⊢
  · simp [hs] at ht
  · obtain ⟨w, hacc, rfl, hpending⟩ := heff.busy_rises hs ht
    exact ⟨w, hacc, ha, hpending⟩

theorem hostTurn_busy_stays (addr : Nat) (acc : Access) {s : State} (hs : s.status.busy = true) :
    (hostTurn addr acc s).status.busy = true := by
  obtain ⟨heq, -⟩ | ⟨a, t, r, -, -, heff, -, heq⟩ := hostTurn_cases addr acc s <;> rw [heq]
  · exact hs
  · exact heff.busy_stays hs

/-- The engine's turn does nothing, or completes a command. -/
theorem engineTurn_eq_next {s t : State} (h : engineTurn s = .next t) :
    t = s ∨ t.pending = none ∧ t.status.busy = false ∧ t.status.done = true := by
  obtain ⟨hstay, -⟩ | ⟨w, r, -, -, hrun, hfinish⟩ := engineTurn_cases s
  · rw [hstay] at h
    cases h
    exact .inl rfl
  · rw [hrun, hfinish] at h
    obtain ⟨hpending, hbusy, hdone, -⟩ := finish_next_status h
    exact .inr ⟨hpending, hbusy, hdone⟩

/-- The engine's turn never sets BUSY, and clears it only by a completion. -/
theorem engineTurn_busy {s t : State} (h : engineTurn s = .next t) :
    (s.status.busy = false → t.status.busy = false) ∧
    (s.status.busy = true → t.status.busy = false → t.status.done = true ∧ t.pending = none) := by
  obtain rfl | ⟨hpending, hbusy, hdone⟩ := engineTurn_eq_next h
  · simp_all
  · exact ⟨fun _ => hbusy, fun _ _ => ⟨hdone, hpending⟩⟩

/-- Settles O9: by the event that the step serves. -/
theorem busyChangesOnlyByCommand : Obligations.BusyChangesOnlyByCommand := by
  intro s t h
  obtain ⟨hin, heq⟩ | ⟨rest, hin, heq⟩ | ⟨addr, acc, rest, hin, heq⟩ | ⟨rest, hin, heq⟩ | ⟨rest, hin, heq⟩ :=
    step_cases s <;> rw [heq] at h
  · obtain ⟨hidle, hbusy⟩ := engineTurn_busy h
    exact ⟨fun hs ht => by simp [hidle hs] at ht, fun hs ht => .inl ⟨.inl hin, hbusy hs ht⟩⟩
  · obtain ⟨hidle, hbusy⟩ := engineTurn_busy h
    exact ⟨fun hs ht => by simp [hidle hs] at ht, fun hs ht => .inl ⟨.inr ⟨rest, hin⟩, hbusy hs ht⟩⟩
  · cases h
    refine ⟨fun hs ht => ?_, fun hs ht => ?_⟩
    · obtain ⟨w, rfl, ha, hpending⟩ := hostTurn_busy_rises (s := s.setInbox rest) hs ht
      exact ⟨addr, w, rest, hin, ha, hpending⟩
    · rw [hostTurn_busy_stays addr acc (s := s.setInbox rest) hs] at ht
      cases ht
  · cases h
    exact ⟨fun _ ht => (nomatch ht), fun _ _ => .inr ⟨rest, hin⟩⟩
  · cases h
    exact ⟨fun hs ht => by simp [hs] at ht, fun hs ht => by simp [hs] at ht⟩

/-! ### The registers of the REG window -/

/-- A 32-bit read at a register's address (10_state R25, R26). -/
@[simp] theorem read_regAddress (r : Reg) (s : State) :
    hostAccess (regAddress r) .read32 s = (.data32 (regValue s r), s) :=
  hostAccess_register_read r s

/-- A 32-bit write at a register's address (10_state R25, R26). -/
@[simp] theorem write_regAddress (r : Reg) (d : Word) (s : State) :
    hostAccess (regAddress r) (.write32 d) s = regStore r d s :=
  hostAccess_register_write r d s

theorem whenIdle_of_idle {s : State} (t : State) (h : s.status.busy = false) : whenIdle s t = (.ack, t) := by
  simp [whenIdle, h]

/-- The fields of the STATUS word (10_state R32). -/
theorem Status.word_fields (t : Status) :
    t.word.getLsbD 0 = t.busy ∧ t.word.getLsbD 1 = t.done ∧ t.word.getLsbD 2 = t.errv ∧ t.word.getLsbD 3 = t.haz ∧
    t.word.extractLsb' 4 4 = t.err ∧ t.word.extractLsb' 8 24 = 0 := by
  have hbit : ∀ i, t.word.getLsbD i = (decide (i < 32) &&
      (t.err ++ BitVec.ofBool t.haz ++ BitVec.ofBool t.errv ++ BitVec.ofBool t.done ++ BitVec.ofBool t.busy).getLsbD i) :=
    fun i => BitVec.getLsbD_setWidth ..
  simp only [BitVec.getLsbD_append] at hbit
  refine ⟨?_, ?_, ?_, ?_, ?_, ?_⟩
  · rw [hbit]; simp
  · rw [hbit]; simp
  · rw [hbit]; simp
  · rw [hbit]; simp
  · ext i hi
    rw [BitVec.getElem_extractLsb', hbit]
    simp [hi, show 4 + i < 32 by omega]
  · ext i hi
    rw [BitVec.getElem_extractLsb', hbit]
    simp

/-- Settles O39: the read is `Status.word`, the write `Status.writeOneToClear`, field by field. -/
theorem statusFields : Obligations.StatusFields := by
  intro s d
  refine ⟨⟨_, read_regAddress .status s, s.status.word_fields⟩, ?_⟩
  rw [write_regAddress, ← Status.writeOneToClear_eq]
  rfl

/-- Storing the low n bits of a word and reading them zero-extended masks it (10_state R26, R27). -/
theorem setWidth_extractLsb'_eq_and {n : Nat} (hn : n ≤ 32) (d : Word) :
    (d.extractLsb' 0 n).setWidth 32 = d &&& BitVec.ofNat 32 (2 ^ n - 1) := by
  have hle : 2 ^ n ≤ 2 ^ 32 := Nat.pow_le_pow_right Nat.zero_lt_two hn
  have hpos := Nat.two_pow_pos n
  apply BitVec.eq_of_toNat_eq
  rw [BitVec.toNat_and, BitVec.toNat_ofNat, Nat.mod_eq_of_lt (by omega), Nat.and_two_pow_sub_one_eq_mod]
  simp only [BitVec.toNat_setWidth, BitVec.extractLsb'_toNat, Nat.shiftRight_zero]
  exact Nat.mod_eq_of_lt ((Nat.mod_lt _ hpos).trans_le hle)

/-- A write to a RW register, while idle, is read back masked to the register's field (10_state R26, R38 to R42). -/
theorem regStore_reads_back {s : State} (hidle : s.status.busy = false) (d : Word) {r : Reg} {m : Word}
    (hrm : (r, m) ∈ [(Reg.width, (0xFFFF : Word)), (.height, 0xFFFF), (.len0, 0x1FFFF), (.len1, 0x1FFFF), (.irqen, 7)]) :
    ∃ t, regStore r d s = (.ack, t) ∧ regValue t r = d &&& m := by
  have hmask16 : (d.extractLsb' 0 16).setWidth 32 = d &&& 0xFFFF := setWidth_extractLsb'_eq_and (by decide) d
  have hmask17 : (d.extractLsb' 0 17).setWidth 32 = d &&& 0x1FFFF := setWidth_extractLsb'_eq_and (by decide) d
  have hmask3 : (d.extractLsb' 0 3).setWidth 32 = d &&& 7 := setWidth_extractLsb'_eq_and (by decide) d
  simp only [List.mem_cons, Prod.mk.injEq, List.not_mem_nil, or_false] at hrm
  obtain ⟨rfl, rfl⟩ | ⟨rfl, rfl⟩ | ⟨rfl, rfl⟩ | ⟨rfl, rfl⟩ | ⟨rfl, rfl⟩ := hrm
  · exact ⟨_, whenIdle_of_idle _ hidle, hmask16⟩
  · exact ⟨_, whenIdle_of_idle _ hidle, hmask16⟩
  · exact ⟨_, whenIdle_of_idle _ hidle, hmask17⟩
  · exact ⟨_, whenIdle_of_idle _ hidle, hmask17⟩
  · exact ⟨_, rfl, hmask3⟩

/-- Settles O42: a read gives `regValue`; while idle a write replaces the field, cut to its width. -/
theorem registersReadBackTheirFields : Obligations.RegistersReadBackTheirFields := by
  intro s d
  refine ⟨⟨rfl, rfl, rfl, rfl, rfl, rfl, rfl⟩, rfl, fun hidle => ?_⟩
  have hstore : ∀ t, whenIdle s t = (.ack, t) := fun t => whenIdle_of_idle t hidle
  refine ⟨hstore _, hstore _, hstore _, hstore _, rfl, fun r m hrm => ?_⟩
  obtain ⟨t, hwrite, hread⟩ := regStore_reads_back hidle d hrm
  exact ⟨t, by rw [write_regAddress, hwrite], by rw [read_regAddress, hread]⟩

/-- Settles O40: `irq`'s three terms, each an enable bit with its status bit. -/
theorem irqIsTheEnabledOr : Obligations.IrqIsTheEnabledOr := by
  intro s
  simp only [State.irq, State.doneie, State.errie, State.hazie, Bool.or_eq_true, Bool.and_eq_true, or_assoc]

/-- A capacity fits bits [16:0] of a register (10_state R29, R30; 00_scope R8). -/
theorem capacity_fields (top : Fin 65536) :
    ((BitVec.ofNat 32 (top.val + 1)).extractLsb' 0 17).toNat = top.val + 1 ∧
    (BitVec.ofNat 32 (top.val + 1)).extractLsb' 17 15 = 0 := by
  have := top.isLt
  constructor
  · simp only [BitVec.extractLsb'_toNat, BitVec.toNat_ofNat, Nat.shiftRight_zero]
    omega
  · apply BitVec.eq_of_toNat_eq
    simp only [BitVec.extractLsb'_toNat, BitVec.toNat_ofNat, Nat.shiftRight_eq_div_pow, BitVec.ofNat_eq_ofNat]
    omega

/-- Settles O41: the three reads are `regValue`, and the three writes `ignored`. -/
theorem constantRegisters : Obligations.ConstantRegisters := by
  intro s d
  refine ⟨rfl, ⟨_, rfl, capacity_fields s.params.srcTop⟩, ⟨_, rfl, capacity_fields s.params.pbufTop⟩, ?_⟩
  rintro r (rfl | rfl | rfl) <;> rfl

/-- Offsets below 0x10000 are the REG window's (20_memory R61). -/
theorem windowOf_of_lt_reg {a : BitVec 19} (h : a.toNat < 0x10000) : windowOf a = .reg := by
  have hbits : (a.extractLsb' 16 3).toNat = 0 := by
    rw [BitVec.extractLsb'_toNat, Nat.shiftRight_eq_div_pow, Nat.div_eq_of_lt h, Nat.zero_mod]
  simp only [windowOf, hbits]

/-- No register stands at 0x00C, nor at 0x030 and above (10_state R25). -/
theorem regAt_reserved {off : Nat} (h : off = 0x00C ∨ 0x030 ≤ off) : regAt off = none := by
  cases hr : regAt off with
  | none => rfl
  | some r =>
    have hoff := regAt_eq_some hr
    cases r <;> simp only [regOffset] at hoff <;> omega

/-- Settles O43: no register stands at such an offset. -/
theorem reservedOffsetsReadZero : Obligations.ReservedOffsetsReadZero := by
  intro s a d halign hreg hreserved
  have hwindow := windowOf_of_lt_reg hreg
  have hindex : byteIndex a = a.toNat := by rw [byteIndex_eq_mod, Nat.mod_eq_of_lt hreg]
  have hnone := regAt_reserved hreserved
  simp [hostAccess, hwindow, regAccess, aligned, halign, regRead, regWrite, hindex, hnone, ignored]

/-- Settles O60: reset's memories are empty, its registers 0, and no event is listed. -/
theorem resetMeetsInvariants : Obligations.ResetMeetsInvariants :=
  ⟨memoriesCanonical_enterReset .reset, lifecycleConsistent_of_completed rfl rfl, errorCodeLegal_of_no_error rfl rfl,
    frameDiffStored_of_dcount_zero rfl rfl, fun h => (nomatch h), rfl⟩

end Sys2Proof.Machine

/-! PROOFS. 20_memory: the windows of the host port, what an access to each does, bus errors, and the platform's addresses. -/

namespace Sys2Proof.Machine

/-! ### The window and the index of an offset (20_memory R61) -/

/-- Bits [18:16] of an offset count the 64 KiB blocks below it. -/
theorem windowBits_eq_div (a : BitVec 19) : (a.extractLsb' 16 3).toNat = a.toNat / 0x10000 := by
  have := a.isLt
  rw [BitVec.extractLsb'_toNat, Nat.shiftRight_eq_div_pow]
  omega

theorem windowOf_eq_src {a : BitVec 19} (hlo : 0x10000 ≤ a.toNat) (hhi : a.toNat < 0x20000) : windowOf a = .src := by
  have hbits : (a.extractLsb' 16 3).toNat = 1 := by rw [windowBits_eq_div]; omega
  simp only [windowOf, hbits]

theorem windowOf_eq_bank0 {a : BitVec 19} (hlo : 0x20000 ≤ a.toNat) (hhi : a.toNat < 0x30000) :
    windowOf a = .pbuf .bank0 := by
  have hbits : (a.extractLsb' 16 3).toNat = 2 := by rw [windowBits_eq_div]; omega
  simp only [windowOf, hbits]

theorem windowOf_eq_bank1 {a : BitVec 19} (hlo : 0x30000 ≤ a.toNat) (hhi : a.toNat < 0x40000) :
    windowOf a = .pbuf .bank1 := by
  have hbits : (a.extractLsb' 16 3).toNat = 3 := by rw [windowBits_eq_div]; omega
  simp only [windowOf, hbits]

theorem windowOf_eq_diff {a : BitVec 19} (hlo : 0x40000 ≤ a.toNat) : windowOf a = .diff := by
  obtain ⟨n, hbits⟩ : ∃ n, (a.extractLsb' 16 3).toNat = n + 4 :=
    Nat.exists_eq_add_of_le' (by rw [windowBits_eq_div]; omega)
  simp only [windowOf, hbits]

/-- Settles O44: the window by the block of the offset, the index by `byteIndex_eq_mod`. -/
theorem windowOfEveryOffset : Obligations.WindowOfEveryOffset := by
  intro a
  have hindex := byteIndex_eq_mod a
  refine ⟨fun hhi => ⟨windowOf_of_lt_reg hhi, ?_⟩, fun hlo hhi => ⟨windowOf_eq_src hlo hhi, ?_⟩,
    fun hlo hhi => ⟨windowOf_eq_bank0 hlo hhi, ?_⟩, fun hlo hhi => ⟨windowOf_eq_bank1 hlo hhi, ?_⟩,
    fun hlo => ⟨windowOf_eq_diff hlo, rfl⟩⟩ <;> omega

/-! ### An access, by its window -/

section
variable {a : BitVec 19}

theorem hostAccess_reg (h : windowOf a = .reg) (acc : Access) (s : State) : hostAccess a acc s = regAccess a acc s := by
  simp only [hostAccess, h]

theorem hostAccess_src (h : windowOf a = .src) (acc : Access) (s : State) :
    hostAccess a acc s = srcAccess (byteIndex a) acc s := by
  simp only [hostAccess, h]

theorem hostAccess_pbuf {b : Bank} (h : windowOf a = .pbuf b) (acc : Access) (s : State) :
    hostAccess a acc s = pbufAccess b (byteIndex a) acc s := by
  simp only [hostAccess, h]

theorem hostAccess_diff (h : windowOf a = .diff) (acc : Access) (s : State) :
    hostAccess a acc s = diffAccess a acc s := by
  simp only [hostAccess, h]

/-- REG and DIFF accept aligned 32-bit accesses (20_memory R62). -/
theorem sizeAccepted_wordWindow (h : windowOf a = .reg ∨ windowOf a = .diff) (acc : Access) :
    sizeAccepted a acc = true ↔ a.toNat % 4 = 0 ∧ (acc = .read32 ∨ ∃ d, acc = .write32 d) := by
  unfold sizeAccepted
  obtain h | h := h <;> rw [h] <;> cases acc <;> simp [aligned]

/-- SRC and the banks accept 8-bit accesses (20_memory R62). -/
theorem sizeAccepted_byteWindow (h : windowOf a = .src ∨ ∃ b, windowOf a = .pbuf b) (acc : Access) :
    sizeAccepted a acc = true ↔ acc = .read8 ∨ ∃ d, acc = .write8 d := by
  unfold sizeAccepted
  obtain h | ⟨b, h⟩ := h <;> rw [h] <;> cases acc <;> simp

/-- An offset in [0x10000, 0x40000) is in SRC or a bank (20_memory R61). -/
theorem windowOf_eq_byteWindow (hlo : 0x10000 ≤ a.toNat) (hhi : a.toNat < 0x40000) :
    windowOf a = .src ∨ ∃ b, windowOf a = .pbuf b := by
  by_cases h2 : a.toNat < 0x20000
  · exact .inl (windowOf_eq_src hlo h2)
  · by_cases h3 : a.toNat < 0x30000
    · exact .inr ⟨_, windowOf_eq_bank0 (by omega) h3⟩
    · exact .inr ⟨_, windowOf_eq_bank1 (by omega) hhi⟩

end

/-! ### Bus errors (20_memory R62, R63) -/

theorem regRead_ne_busError (off : Nat) (s : State) : (regRead off s).1 ≠ .busError := by
  unfold regRead
  split <;> simp

theorem whenIdle_answer (s t : State) : (whenIdle s t).1 = .ack := by
  unfold whenIdle
  split <;> rfl

theorem regStore_answer (r : Reg) (d : Word) (s : State) : (regStore r d s).1 = .ack := by
  cases r <;> simp [regStore, whenIdle_answer, ignored]

theorem regWrite_answer (off : Nat) (d : Word) (s : State) : (regWrite off d s).1 = .ack := by
  unfold regWrite
  split
  · exact regStore_answer _ d s
  · rfl

theorem byteRead_ne_busError (m : Memory 8) (cap i : Nat) (s : State) : (byteRead m cap i s).1 ≠ .busError := by
  unfold byteRead drawnByte
  repeat' split
  all_goals simp

theorem byteWrite_answer (cap i : Nat) (s t : State) : (byteWrite cap i s t).1 = .ack := by
  unfold byteWrite
  repeat' split
  all_goals rfl

theorem entryRead_ne_busError (i : Nat) (s : State) : (entryRead i s).1 ≠ .busError := by
  unfold entryRead drawnWord
  repeat' split
  all_goals simp

theorem entryWrite_answer (s : State) : (entryWrite s).1 = .ack := by
  unfold entryWrite
  split <;> rfl

/-- A transaction that its window accepts is answered with data or an acknowledgement, any other with a bus error that leaves the
state alone (20_memory R62, R63). -/
theorem hostAccess_answer (a : BitVec 19) (acc : Access) (s : State) :
    (sizeAccepted a acc = false → hostAccess a acc s = busError s) ∧
    (sizeAccepted a acc = true → (hostAccess a acc s).1 ≠ .busError) := by
  rw [← Bool.not_eq_true]
  cases hw : windowOf a with
  | reg =>
    rw [sizeAccepted_wordWindow (.inl hw), hostAccess_reg hw]
    cases acc <;> simp +contextual [regAccess, aligned, regRead_ne_busError, regWrite_answer]
  | src =>
    rw [sizeAccepted_byteWindow (.inl hw), hostAccess_src hw]
    cases acc <;> simp +contextual [srcAccess, byteRead_ne_busError, byteWrite_answer]
  | pbuf b =>
    rw [sizeAccepted_byteWindow (.inr ⟨b, hw⟩), hostAccess_pbuf hw]
    cases acc <;> simp +contextual [pbufAccess, byteRead_ne_busError, byteWrite_answer]
  | diff =>
    rw [sizeAccepted_wordWindow (.inr hw), hostAccess_diff hw]
    cases acc <;> simp +contextual [diffAccess, aligned, entryRead_ne_busError, entryWrite_answer]

/-- Settles O45: by the window of the offset. -/
theorem busErrorsChangeNothing : Obligations.BusErrorsChangeNothing := by
  intro a acc s
  obtain ⟨hrejected, haccepted⟩ := hostAccess_answer a acc s
  refine ⟨hrejected, haccepted, fun h => ?_, fun hlo hhi => ?_⟩
  · exact sizeAccepted_wordWindow (h.imp windowOf_of_lt_reg windowOf_eq_diff) acc
  · exact sizeAccepted_byteWindow (windowOf_eq_byteWindow hlo hhi) acc

/-! ### The byte windows while idle (20_memory R68, R69) -/

section
variable {m : Memory 8} {cap i : Nat} {s : State} (hidle : s.status.busy = false)
include hidle

theorem byteRead_written (hi : i < cap) {v : Byte} (h : Memory.read m i = some v) :
    byteRead m cap i s = (.data8 v, s) := by
  simp [byteRead, hidle, hi, h]

theorem byteRead_unwritten (hi : i < cap) (h : Memory.read m i = none) : byteRead m cap i s = drawnByte s := by
  simp [byteRead, hidle, hi, h]

theorem byteRead_unbacked (hi : cap ≤ i) : byteRead m cap i s = (.data8 0, s) := by
  simp [byteRead, hidle, Nat.not_lt_of_ge hi]

theorem byteWrite_backed (hi : i < cap) (t : State) : byteWrite cap i s t = (.ack, t) := by
  simp [byteWrite, hidle, hi]

theorem byteWrite_unbacked (hi : cap ≤ i) (t : State) : byteWrite cap i s t = (.ack, s) := by
  simp [byteWrite, hidle, Nat.not_lt_of_ge hi, ignored]

end

/-- Settles O46: the access is `byteRead` or `byteWrite` of SRC, and a read follows a write by `Memory.read_write_same`. -/
theorem srcHostAccess : Obligations.SrcHostAccess := by
  intro s a d hidle hw
  have hread (t : State) : hostAccess a .read8 t = byteRead t.src t.params.srcCap (byteIndex a) t :=
    hostAccess_src hw .read8 t
  have hwrite : hostAccess a (.write8 d) s =
      byteWrite s.params.srcCap (byteIndex a) s (s.setSrc (Memory.write s.src (byteIndex a) d)) :=
    hostAccess_src hw (.write8 d) s
  rw [hwrite]
  refine ⟨fun hi => ⟨⟨_, byteWrite_backed hidle hi _, rfl, Memory.read_write_same .., ?_, ?_⟩, ?_, ?_⟩, fun hi => ⟨?_, ?_⟩⟩
  · exact fun k hk => Memory.read_write_other _ hk d
  · rw [hread]
    exact byteRead_written (by simpa using hidle) (by simpa using hi) (by simp)
  · exact fun v hv => (hread s).trans (byteRead_written hidle hi hv)
  · exact fun hv => ⟨_, (hread s).trans (byteRead_unwritten hidle hi hv)⟩
  · exact (hread s).trans (byteRead_unbacked hidle hi)
  · exact byteWrite_unbacked hidle hi _

/-- Settles O47: the access is `byteRead` or `byteWrite` of the bank, and `setPbuf` keeps LEN. -/
theorem bankHostAccess : Obligations.BankHostAccess := by
  intro s b a d hidle hw
  have hread (t : State) : hostAccess a .read8 t = byteRead (t.pbuf b) t.params.pbufCap (byteIndex a) t :=
    hostAccess_pbuf hw .read8 t
  have hwrite : hostAccess a (.write8 d) s =
      byteWrite s.params.pbufCap (byteIndex a) s (s.setPbuf b (Memory.write (s.pbuf b) (byteIndex a) d)) :=
    hostAccess_pbuf hw (.write8 d) s
  rw [hwrite]
  refine ⟨fun hi => ⟨⟨_, byteWrite_backed hidle hi _, by simp, by simp, ?_, by simp, ?_⟩, ?_, ?_⟩, fun hi => ⟨?_, ?_⟩⟩
  · intro k hk
    rw [State.setPbuf_pbuf_same, Memory.read_write_other _ hk]
  · rw [hread]
    exact byteRead_written (by simpa using hidle) (by simpa using hi) (by simp)
  · exact fun v hv => (hread s).trans (byteRead_written hidle hi hv)
  · exact fun hv => ⟨_, (hread s).trans (byteRead_unwritten hidle hi hv)⟩
  · exact (hread s).trans (byteRead_unbacked hidle hi)
  · exact byteWrite_unbacked hidle hi _

/-! ### The DIFF window while idle (20_memory R70) -/

section
variable {i : Nat} {s : State} (hidle : s.status.busy = false)
include hidle

theorem entryRead_written (hi : i < s.params.pbufCap) {w : Word} (h : Memory.read s.diffmem i = some w) :
    entryRead i s = (.data32 w, s) := by
  simp [entryRead, hidle, hi, h]

theorem entryRead_unwritten (hi : i < s.params.pbufCap) (h : Memory.read s.diffmem i = none) :
    entryRead i s = drawnWord s := by
  simp [entryRead, hidle, hi, h]

theorem entryRead_unbacked (hi : s.params.pbufCap ≤ i) : entryRead i s = (.data32 0, s) := by
  simp [entryRead, hidle, Nat.not_lt_of_ge hi]

theorem entryWrite_idle : entryWrite s = (.ack, s) := by
  simp [entryWrite, hidle, ignored]

end

/-- Settles O48: the access is `entryRead` or `entryWrite`. -/
theorem diffWindowHostAccess : Obligations.DiffWindowHostAccess := by
  intro s a d hidle hw halign
  have hread : hostAccess a .read32 s = entryRead (entryIndex a) s := by
    rw [hostAccess_diff hw]
    simp [diffAccess, aligned, halign]
  have hwrite : hostAccess a (.write32 d) s = entryWrite s := by
    rw [hostAccess_diff hw]
    simp [diffAccess, aligned, halign]
  rw [hread, hwrite]
  refine ⟨fun hi => ⟨fun w hv => ?_, fun hv => ?_⟩, fun hi => ?_, ?_⟩
  · exact entryRead_written hidle hi hv
  · exact ⟨_, entryRead_unwritten hidle hi hv⟩
  · exact entryRead_unbacked hidle hi
  · exact entryWrite_idle hidle

/-! ### Reads while idle (20_memory R71) -/

/-- Of all that a transaction can do, a read while idle can only draw. -/
theorem AccessEffect.idle_read {acc : Access} {a : BitVec 19} {s t : State} (h : AccessEffect acc a s t)
    (hidle : s.status.busy = false) (hread : acc = .read8 ∨ acc = .read32) : ∃ n, t = { s with draws := n } := by
  cases h with
  | nothing => exact ⟨s.draws, rfl⟩
  | drawByte => exact ⟨s.draws + 1, rfl⟩
  | drawWord => exact ⟨s.draws + 1, rfl⟩
  | hazard hbusy => simp [hidle] at hbusy
  | hazardDrawByte hbusy => simp [hidle] at hbusy
  | hazardDrawWord hbusy => simp [hidle] at hbusy
  | _ => simp_all -- the others are the effects of writes

/-- Settles O49: by the effects that a transaction can have. -/
theorem idleReadsHaveNoSideEffect : Obligations.IdleReadsHaveNoSideEffect :=
  fun s a acc hidle hread => (hostAccess_effect a acc s).idle_read hidle hread

/-! ### Byte lanes (20_memory R64) -/

theorem Word.lane_getLsbD (w : Word) (j : Nat) {k : Nat} (hk : k < 8) : (w.lane j).getLsbD k = w.getLsbD (8 * j + k) := by
  simp [Word.lane, hk]

/-- The four lanes of a word, put together, are the word. -/
@[simp] theorem Word.ofLanes_lane (w : Word) : Word.ofLanes (w.lane 0) (w.lane 1) (w.lane 2) (w.lane 3) = w := by
  have hlanes32 : w.lane 3 ++ w.lane 2 = w.extractLsb' 16 16 := BitVec.extractLsb'_append_extractLsb'_eq_extractLsb' rfl
  have hlanes321 : w.extractLsb' 16 16 ++ w.lane 1 = w.extractLsb' 8 24 :=
    BitVec.extractLsb'_append_extractLsb'_eq_extractLsb' rfl
  have hlanes3210 : w.extractLsb' 8 24 ++ w.lane 0 = w.extractLsb' 0 32 :=
    BitVec.extractLsb'_append_extractLsb'_eq_extractLsb' rfl
  rw [Word.ofLanes, hlanes32, hlanes321, hlanes3210, BitVec.extractLsb'_eq_self]

/-- Settles O5: bit by bit, and by `Word.ofLanes_lane`. -/
theorem lanesCarryTheWord : Obligations.LanesCarryTheWord := by
  intro w
  refine ⟨fun j _ k hk => Word.lane_getLsbD w j hk, Word.ofLanes_lane w, ?_⟩
  rw [decodeBytes, Word.ofLanes_lane]

/-! ### Entry words and display positions (20_memory R67, 42_diff R155) -/

/-- Page p, column x stands at address p * W + x, and the decode gives them back. -/
theorem displayPosition_pageIndex {W x : Nat} (p : Nat) (hx : x < W) : displayPosition W (p * W + x) = (p, x) := by
  have hdiv : (p * W + x) / W = p := by
    rw [Nat.mul_comm, Nat.mul_add_div (by omega), Nat.div_eq_of_lt hx, Nat.add_zero]
  rw [displayPosition, hdiv, Nat.add_sub_cancel_left]

/-- Settles O38: the fields are those of `entryOf`. -/
theorem entryWordAndItsPosition : Obligations.EntryWordAndItsPosition := by
  refine ⟨fun e => ?_, rfl, fun W p x hx => displayPosition_pageIndex p hx, rfl⟩
  have hentry := entryOf_entryWord e
  exact ⟨congrArg DiffEntry.addr hentry, congrArg DiffEntry.value hentry, entryWord_topByte e, hentry⟩

/-! ### Platform addresses (20_memory R60, R78) -/

theorem offsetOf_base_add (p : Params) {off : Nat} (h : off < 0x80000) :
    offsetOf p (p.base + off) = some (BitVec.ofNat 19 off) := by
  simp [offsetOf, h]

theorem offsetOf_outside {p : Params} {addr : Nat} (h : addr < p.base ∨ p.base + 0x80000 ≤ addr) :
    offsetOf p addr = none := by
  rw [offsetOf, if_neg (by omega)]

/-- A step that serves a transaction is the host's turn (10_state R23). -/
theorem step_of_access {s : State} {addr : Nat} {acc : Access} {rest : List Event}
    (h : s.inbox = .access addr acc :: rest) : step s = .next (hostTurn addr acc (s.setInbox rest)) := by
  simp only [step, nextEvent, h, turn]

/-- Out of reset, a transaction at an address of the XBN is served at its offset (20_memory R60). -/
theorem hostTurn_inside {s : State} {addr : Nat} {a : BitVec 19} (hrst : s.rstN = true)
    (ha : offsetOf s.params addr = some a) (acc : Access) : hostTurn addr acc s = answer (hostAccess a acc s) := by
  simp [hostTurn, hrst, ha]

/-- A transaction outside changes nothing (20_memory R78). -/
theorem hostTurn_outside {s : State} {addr : Nat} (ha : offsetOf s.params addr = none) (acc : Access) :
    hostTurn addr acc s = s.emit .noAnswer := by
  simp [hostTurn, ha]

/-- Settles O51: by the offset of the address. -/
theorem platformAddressDecode : Obligations.PlatformAddressDecode := by
  refine ⟨fun p addr => ⟨fun off => offsetOf_base_add p, offsetOf_outside⟩, fun s addr acc rest hin => ?_, fun r t => rfl⟩
  rw [step_of_access hin]
  refine ⟨fun a hrst ha => ?_, fun ha => ?_⟩
  · rw [hostTurn_inside (s := s.setInbox rest) hrst ha]
    rfl
  · rw [hostTurn_outside (s := s.setInbox rest) ha]
    rfl

end Sys2Proof.Machine

/-! PROOFS. 30_encoding: a command word and its fields, decode and encode, match and mask, and the host notation. -/

namespace Sys2Proof

/-! ### The fields of a word (30_encoding R81) -/

/-- RSV1, RSV0, OP, A and B of a word (R81). -/
def Word.fields (w : Word) : BitVec 22 × BitVec 4 × BitVec 4 × Bool × Bool :=
  (w.rsv1, w.rsv0, w.op, w.fieldA, w.fieldB)

/-- What the fields of a command's word hold: no reserved bit, the opcode, and the operand bits (R84 to R86). -/
def Instr.fields : Instr → BitVec 22 × BitVec 4 × BitVec 4 × Bool × Bool
  | .nop => (0, 0, 0, false, false)
  | .convert a => (0, 0, 1, bitOfBank a, false)
  | .diff a b => (0, 0, 2, bitOfBank a, bitOfBank b)

/-- The fields leave no bit of the word out. -/
theorem Word.eq_of_fields_eq {v w : Word} (h : v.fields = w.fields) : v = w := by
  simp only [Word.fields, Prod.mk.injEq] at h
  obtain ⟨hrsv1, hrsv0, hop, hA, hB⟩ := h
  refine BitVec.eq_of_getLsbD_eq fun k hk => ?_
  obtain hk4 | hk8 | rfl | rfl | hk10 : k < 4 ∨ (4 ≤ k ∧ k < 8) ∨ k = 8 ∨ k = 9 ∨ 10 ≤ k := by omega
  · simpa [Word.op, hk4] using congrArg (·.getLsbD k) hop
  · simpa [Word.rsv0, show k - 4 < 4 by omega, hk8.1] using congrArg (·.getLsbD (k - 4)) hrsv0
  · exact hA
  · exact hB
  · simpa [Word.rsv1, show k - 10 < 22 by omega, hk10] using congrArg (·.getLsbD (k - 10)) hrsv1

/-! ### Decode and encode (30_encoding R84 to R88) -/

@[simp] theorem bitOfBank_bankOfBit (bit : Bool) : bitOfBank (bankOfBit bit) = bit := by cases bit <;> rfl

/-- A word that decodes to a command has that command's fields. -/
theorem Word.fields_of_decode {w : Word} {i : Instr} (h : decode w = .ok i) : w.fields = i.fields := by
  unfold decode at h
  -- Only the leaves of NOP, CONVERT and DIFF answer a command, and the tests on the way to a leaf fix every field.
  split_ifs at h <;> cases h
  all_goals simp_all [Word.fields, Instr.fields]

theorem decode_encode (i : Instr) : decode (encode i) = .ok i := by
  cases i with
  | nop => exact Laws.EncodeWellFormed.nop.2
  | convert a => exact (Laws.EncodeWellFormed.convert a).2
  | diff a b => exact (Laws.EncodeWellFormed.diff a b).2

theorem decode_eq_ok_iff (w : Word) (i : Instr) : decode w = .ok i ↔ w = encode i := by
  constructor
  · intro h
    refine Word.eq_of_fields_eq ?_
    rw [Word.fields_of_decode h, Word.fields_of_decode (decode_encode i)]
  · rintro rfl
    exact decode_encode i

/-- Settles O1: a word and the command's own word decode to the same command, so they agree in every field. -/
theorem decodeAndEncodeAgree : Obligations.DecodeAndEncodeAgree := decode_eq_ok_iff

/-- The word of CONVERT as R91 writes it. -/
theorem encode_convert (a : Bank) : encode (.convert a) = 0x00000001 ||| (if bitOfBank a then 1 else 0) <<< 8 := by
  cases a <;> rfl

/-- The word of DIFF as R91 writes it. -/
theorem encode_diff (a b : Bank) :
    encode (.diff a b) = 0x00000002 ||| (if bitOfBank a then 1 else 0) <<< 8 ||| (if bitOfBank b then 1 else 0) <<< 9 := by
  cases a <;> cases b <;> rfl

/-! ### Match and mask (30_encoding R84 to R86) -/

/-- Words are equal when they agree under a mask and at each bit the mask leaves out. -/
theorem Word.eq_iff_of_mask {m : Word} {operands : List Nat} (hm : ∀ k < 32, m.getLsbD k = false ↔ k ∈ operands) (v w : Word) :
    v = w ↔ v &&& m = w &&& m ∧ ∀ k ∈ operands, v.getLsbD k = w.getLsbD k := by
  constructor
  · rintro rfl
    exact ⟨rfl, fun _ _ => rfl⟩
  · rintro ⟨hmask, hbits⟩
    refine BitVec.eq_of_getLsbD_eq fun k hk => ?_
    by_cases hmk : m.getLsbD k = false
    · exact hbits k ((hm k hk).1 hmk)
    · simpa [hmk] using congrArg (·.getLsbD k) hmask

theorem encode_convert_matches (a : Bank) :
    encode (.convert a) &&& 0xFFFFFEFF = 0x00000001 ∧ (encode (.convert a)).getLsbD 8 = bitOfBank a := by
  cases a <;> exact ⟨rfl, rfl⟩

theorem encode_diff_matches (a b : Bank) :
    encode (.diff a b) &&& 0xFFFFFCFF = 0x00000002 ∧
      (encode (.diff a b)).getLsbD 8 = bitOfBank a ∧ (encode (.diff a b)).getLsbD 9 = bitOfBank b := by
  cases a <;> cases b <;> exact ⟨rfl, rfl, rfl⟩

theorem decode_eq_nop_iff (w : Word) : decode w = .ok .nop ↔ w &&& 0xFFFFFFFF = 0x00000000 := by
  rw [decode_eq_ok_iff, Word.eq_iff_of_mask (m := 0xFFFFFFFF) (operands := []) (by decide)]
  simp [encode]

theorem decode_eq_convert_iff (w : Word) (a : Bank) :
    decode w = .ok (.convert a) ↔ w &&& 0xFFFFFEFF = 0x00000001 ∧ w.getLsbD 8 = bitOfBank a := by
  obtain ⟨hmatch, hA⟩ := encode_convert_matches a
  rw [decode_eq_ok_iff, Word.eq_iff_of_mask (m := 0xFFFFFEFF) (operands := [8]) (by decide), hmatch]
  simp only [List.forall_mem_singleton, hA]

theorem decode_eq_diff_iff (w : Word) (a b : Bank) :
    decode w = .ok (.diff a b) ↔
      w &&& 0xFFFFFCFF = 0x00000002 ∧ w.getLsbD 8 = bitOfBank a ∧ w.getLsbD 9 = bitOfBank b := by
  obtain ⟨hmatch, hA, hB⟩ := encode_diff_matches a b
  rw [decode_eq_ok_iff, Word.eq_iff_of_mask (m := 0xFFFFFCFF) (operands := [8, 9]) (by decide), hmatch]
  simp only [List.forall_mem_cons, List.not_mem_nil, false_imp_iff, implies_true, and_true, hA, hB]

/-- Settles O2: a word is a command's word when it agrees with it under the mask and at the operand bits. -/
theorem decodeMatchesOpcodeTable : Obligations.DecodeMatchesOpcodeTable :=
  ⟨fun w => ⟨decode_eq_nop_iff w, decode_eq_convert_iff w, decode_eq_diff_iff w⟩, rfl, rfl, rfl, rfl, rfl, rfl, rfl⟩

/-- Settles O3: each legal word is the command's word, and each illegal one is decoded. -/
theorem writtenOutWordsDecode : Obligations.WrittenOutWordsDecode :=
  ⟨decode_encode .nop, decode_encode (.convert .bank0), decode_encode (.convert .bank1), decode_encode (.diff .bank1 .bank0),
    decode_encode (.diff .bank0 .bank1), rfl, rfl, rfl, rfl, rfl⟩

end Sys2Proof

namespace Sys2Proof.Machine

/-! ### The host notation (30_encoding R90, R91) -/

/-- An operation with a transaction inside the XBN performs its access; the answer decides what becomes of `v` (R90). -/
theorem hostOp_of_transaction {op : HostOp} {off : Nat} {acc : Access} (hop : hostTransaction op = some (off, acc))
    (hoff : off < 0x80000) (h : HostVars) (s : State) :
    hostOp op h s = (resultVariable h.v (hostAccess (BitVec.ofNat 19 off) acc s).1).map fun v =>
      ({ position := h.position + 1, v := v }, answer (hostAccess (BitVec.ofNat 19 off) acc s)) := by
  cases op with
  | bclr n l => cases hop
  | bset n l => cases hop
  | _ => simp only [hostOp, hop, if_pos hoff]

@[simp] theorem fill_length (w : ByteWindow) (lo hi : Nat) (imm : Byte) : (fill w lo hi imm).length = hi - lo := by
  simp [fill]

theorem fill_getElem? (w : ByteWindow) {lo hi k : Nat} (hk : k < hi - lo) (imm : Byte) :
    (fill w lo hi imm)[k]? = some (.wr8 w (lo + k) imm) := by
  simp [fill, hk]

/-- Settles O52: the table of transactions and the jumps are the definitions' own; the effect of a transaction follows from
`hostOp_of_transaction`. -/
theorem hostNotationTransactions : Obligations.HostNotationTransactions := by
  refine ⟨⟨fun _ _ => rfl, fun _ => rfl, fun _ _ => ⟨rfl, rfl, rfl⟩, fun _ => ⟨rfl, rfl, rfl⟩, fun _ => rfl⟩,
    fun op h s off acc hop hoff => ?_, fun _ _ _ _ => ⟨rfl, rfl⟩, fun _ => rfl, encode_convert, encode_diff, rfl, fun _ => rfl,
    fun w lo hi imm => ⟨fill_length w lo hi imm, fun k hk => fill_getElem? w hk imm⟩⟩
  rw [hostOp_of_transaction hop hoff]
  refine ⟨fun x t haccess => ?_, fun x t haccess => ?_, fun t haccess => ?_⟩ <;> rw [haccess] <;> rfl

end Sys2Proof.Machine

/-! PROOFS. 40_command: how a command starts, runs and completes, what it never writes, and what the host cannot change. -/

namespace Sys2Proof.Machine

/-! ### The engine's turn (40_command R103) -/

theorem step_of_no_event {s : State} (h : s.inbox = []) : step s = engineTurn s := by
  simp only [step, nextEvent, h]

theorem step_of_engineTurn {s : State} {rest : List Event} (h : s.inbox = .engineTurn :: rest) :
    step s = engineTurn (s.setInbox rest) := by
  simp only [step, nextEvent, h, turn]

theorem engineTurn_of_pending {s : State} {w : Word} (hrst : s.rstN = true) (hpending : s.pending = some w) :
    engineTurn s = runWord w s := by
  simp only [engineTurn, hpending, hrst, if_true]

theorem engineTurn_of_decode {s : State} {w : Word} {i : Instr} (hrst : s.rstN = true) (hpending : s.pending = some w)
    (hdecode : decode w = .ok i) : engineTurn s = exec i s := by
  rw [engineTurn_of_pending hrst hpending, runWord, hdecode]

theorem tableWord_toNat (w : Word) : tableWord 32 w.toNat = w := by
  rw [tableWord, Nat.mod_eq_of_lt w.isLt, BitVec.ofNat_toNat, BitVec.setWidth_eq]

/-- The step after a word is placed is the engine's turn on the accepted word, whatever events are listed. -/
theorem step_placeCommand (s : State) (w : Word) : step (placeCommand s w) = engineTurn ((s.accept w).setRstN true) := by
  unfold placeCommand
  split
  · next hin => exact step_of_no_event hin
  · rw [step_of_engineTurn (rest := s.inbox) rfl]
    rfl

/-- Settles O6: the two events that are the engine's turn, and the accepted word decoded. -/
theorem stepRunsDecodedCommand : Obligations.StepRunsDecodedCommand := by
  refine ⟨fun s => ⟨step_of_no_event, fun rest => step_of_engineTurn⟩,
    fun s w i hrst hpending hdecode => ⟨fun hin => ?_, fun rest hin => ?_⟩, fun s i => ?_⟩
  · rw [step_of_no_event hin, engineTurn_of_decode hrst hpending hdecode]
  · rw [step_of_engineTurn hin]
    exact engineTurn_of_decode hrst hpending hdecode
  · rw [State.withFetchWord, tableWord_toNat, step_placeCommand]
    exact engineTurn_of_decode rfl rfl (decode_encode i)

/-! ### Acceptance (40_command R100 to R102) -/

theorem whenIdle_of_busy {s : State} (t : State) (h : s.status.busy = true) : whenIdle s t = (.ack, s.setHaz) := by
  simp only [whenIdle, h, if_true, droppedWrite]

/-- Acceptance clears DONE and ERRV, so only HAZ can hold irq up (10_state R43). -/
theorem irq_accept (s : State) (w : Word) : (s.accept w).irq = (s.status.haz && s.hazie) := by
  simp [State.irq, State.hazie]

/-- Settles O7: CMD is stored only while idle, and a busy write is a hazard. -/
theorem cmdWriteAcceptsOrDrops : Obligations.CmdWriteAcceptsOrDrops := by
  refine fun s w => ⟨fun hidle => ⟨?_, fun hhaz => ?_⟩, fun hbusy => ?_⟩
  · rw [write_regAddress]
    exact whenIdle_of_idle _ hidle
  · rw [irq_accept]
    exact Bool.and_eq_false_iff.2 hhaz
  · rw [write_regAddress]
    exact whenIdle_of_busy _ hbusy

/-- A transaction leaves PENDING, or is a CMD write that is accepted. -/
theorem AccessEffect.pending_cases {acc : Access} {a : BitVec 19} {s t : State} (h : AccessEffect acc a s t) :
    t.pending = s.pending ∨
    ∃ w, acc = .write32 w ∧ a = regAddress .cmd ∧ s.status.busy = false ∧ t.pending = some w := by
  cases h with
  | accepted w hidle hacc ha => exact .inr ⟨w, hacc, ha, hidle, rfl⟩
  | _ => exact .inl (by simp)

/-- A host's turn leaves PENDING, or has a CMD write accepted. -/
theorem hostTurn_pending_cases (addr : Nat) (acc : Access) (s : State) :
    (hostTurn addr acc s).pending = s.pending ∨
    ∃ w, acc = .write32 w ∧ offsetOf s.params addr = some (regAddress .cmd) ∧ s.status.busy = false ∧ s.rstN = true ∧
      (hostTurn addr acc s).pending = some w := by
  obtain ⟨heq, -⟩ | ⟨a, t, r, hrst, ha, heff, -, heq⟩ := hostTurn_cases addr acc s <;> rw [heq]
  · exact .inl rfl
  · obtain hkept | ⟨w, hacc, rfl, hidle, hpending⟩ := heff.pending_cases
    · exact .inl hkept
    · exact .inr ⟨w, hacc, ha, hidle, hrst, hpending⟩

/-- The engine's turn starts no command. -/
theorem engineTurn_pending_none {s t : State} (hs : s.pending = none) (h : engineTurn s = .next t) : t.pending = none := by
  obtain rfl | ⟨hpending, -⟩ := engineTurn_eq_next h
  · exact hs
  · exact hpending

/-- Settles O8: by the event that the step serves; only a transaction can start a command. -/
theorem onlyCmdWriteStartsCommand : Obligations.OnlyCmdWriteStartsCommand := by
  intro s t w h hs ht
  obtain ⟨-, heq⟩ | ⟨rest, -, heq⟩ | ⟨addr, acc, rest, hin, heq⟩ | ⟨rest, -, heq⟩ | ⟨rest, -, heq⟩ :=
    step_cases s <;> rw [heq] at h
  · simp [engineTurn_pending_none hs h] at ht
  · simp [engineTurn_pending_none (s := s.setInbox rest) hs h] at ht
  · cases h
    obtain hkept | ⟨v, rfl, ha, hidle, hrst, hpending⟩ := hostTurn_pending_cases addr acc (s.setInbox rest)
    · simp [hkept, hs] at ht
    · obtain rfl : v = w := by simpa [hpending] using ht
      exact ⟨addr, rest, hin, ha, hidle, hrst⟩
  · cases h
    simp at ht
  · cases h
    simp [hs] at ht

/-! ### Completion (40_command R104) -/

/-- Settles O10: a success keeps ERRV and ERR, an error sets them, and both complete. -/
theorem everyCompletionSetsDone : Obligations.EveryCompletionSetsDone := by
  intro s t w hrst hpending herrv herr h
  rw [engineTurn_of_pending hrst hpending] at h
  obtain ⟨r, hr⟩ := runWord_is_finish w s
  obtain ⟨hnone, hbusy, hdone, hhaz⟩ := finish_next_status (hr ▸ h)
  refine ⟨hbusy, hdone, hnone, hhaz, ?_, ?_⟩
  · rintro (hdoneie | ⟨hterrv, herrie⟩)
    · simp [State.irq, hdone, hdoneie]
    · simp [State.irq, hterrv, herrie]
  · obtain ⟨ws, -, rfl⟩ | ⟨e, rfl⟩ := runWord_eq_next h
    · exact .inl (by simp [Status.succeeded, herrv, herr])
    · exact .inr ⟨e, rfl, rfl, rfl⟩

/-- Settles O17: NOP's list of writes is empty. -/
theorem nopOnlyCompletes : Obligations.NopOnlyCompletes := fun _ => rfl

/-- A word with NOP's opcode and a bank bit set is no command's word (30_encoding R87). -/
theorem decode_nop_with_bank {w : Word} (hop : w.op = 0) (hbank : w.fieldA = true ∨ w.fieldB = true) :
    ∃ e, decode w = .error e := by
  cases hdecode : decode w with
  | error e => exact ⟨e, rfl⟩
  | ok i =>
    have hfields := Word.fields_of_decode hdecode
    -- NOP's fields hold no bank bit, and the other commands hold another opcode.
    cases i <;> simp_all [Word.fields, Instr.fields]

/-- Settles O18: NOP's word decodes to NOP, which completes with what acceptance left in STATUS. -/
theorem acceptedNopGivesDone : Obligations.AcceptedNopGivesDone := by
  have hnop : ∀ s : State, s.rstN = true → engineTurn (s.accept 0x00000000) = .next (s.accept 0x00000000).complete :=
    fun s hrst => (engineTurn_of_decode (s := s.accept 0x00000000) hrst rfl (decode_encode .nop)).trans (nopOnlyCompletes _)
  exact ⟨rfl, hnop, fun w => decode_nop_with_bank, _, hnop .reset rfl, rfl⟩

/-! ### What no command writes (40_command R110) -/

theorem convertCmd_writes {a : Bank} {s : State} {ws : List EngineWrite} (h : convertCmd a s = .ok (.ok ws)) :
    ∃ out, ws = convertWrites a s.W s.H out := by
  simp only [convertCmd] at h
  repeat' split at h
  all_goals cases h
  exact ⟨_, rfl⟩

theorem diffCmd_writes {a b : Bank} {s : State} {ws : List EngineWrite} (h : diffCmd a b s = .ok (.ok ws)) :
    ∃ es, ws = diffWrites es := by
  simp only [diffCmd] at h
  repeat' split at h
  all_goals cases h
  exact ⟨_, rfl⟩

theorem performWrites_convertWrites (a : Bank) (W H : Nat) (out : Memory 8) (s : State) :
    performWrites (convertWrites a W H out) s =
      (s.setPbuf a (out.foldl (fun m c => Memory.write m c.1 c.2) (s.pbuf a))).setLen a (BitVec.ofNat 17 (outBytes W H)) := by
  rw [convertWrites, performWrites_append, performWrites_pbuf]
  rfl

/-- Besides the completion, CONVERT a writes bank a and LEN[a], or it fails (41_convert R123, R129). -/
theorem exec_convert_eq_next {a : Bank} {s t : State} (h : exec (.convert a) s = .next t) :
    (∃ m n, t = ((s.setPbuf a m).setLen a n).complete) ∨ ∃ e, t = (s.recordError e).complete := by
  obtain ⟨ws, hws, rfl⟩ | ⟨e, -, rfl⟩ := finish_eq_next.1 h
  · obtain ⟨out, rfl⟩ := convertCmd_writes hws
    exact .inl ⟨_, _, by rw [performWrites_convertWrites]⟩
  · exact .inr ⟨e, rfl⟩

/-- Besides the completion, DIFF writes DIFFMEM and DCOUNT, or it fails (42_diff R146, R151). -/
theorem exec_diff_eq_next {a b : Bank} {s t : State} (h : exec (.diff a b) s = .next t) :
    (∃ m k, t = ((s.setDiffmem m).setDcount k).complete) ∨ ∃ e, t = (s.recordError e).complete := by
  obtain ⟨ws, hws, rfl⟩ | ⟨e, -, rfl⟩ := finish_eq_next.1 h
  · obtain ⟨es, rfl⟩ := diffCmd_writes hws
    exact .inl ⟨_, _, by rw [performWrites_diffWrites, performWrites_entryWrites]⟩
  · exact .inr ⟨e, rfl⟩

/-- A command other than CONVERT into bank b leaves the bank and its LEN. -/
theorem exec_keeps_bank {i : Instr} {s t : State} {b : Bank} (h : exec i s = .next t) (hi : i ≠ .convert b) :
    t.pbuf b = s.pbuf b ∧ t.len b = s.len b := by
  cases i with
  | nop =>
    cases h
    simp
  | convert a =>
    have hb : b ≠ a := fun hba => hi (hba ▸ rfl)
    obtain ⟨m, n, rfl⟩ | ⟨e, rfl⟩ := exec_convert_eq_next h
    · simp [State.setPbuf_pbuf_other _ hb, State.setLen_len_other _ hb]
    · simp
  | diff a c => obtain ⟨m, k, rfl⟩ | ⟨e, rfl⟩ := exec_diff_eq_next h <;> simp

/-- A command other than DIFF leaves DIFFMEM and DCOUNT. -/
theorem exec_keeps_diff_outputs {i : Instr} {s t : State} (h : exec i s = .next t) (hi : ∀ a b, i ≠ .diff a b) :
    t.diffmem = s.diffmem ∧ t.dcount = s.dcount := by
  cases i with
  | nop =>
    cases h
    simp
  | convert a => obtain ⟨m, n, rfl⟩ | ⟨e, rfl⟩ := exec_convert_eq_next h <;> simp
  | diff a b => exact absurd rfl (hi a b)

/-- Settles O12: the frame of every completion, and what each command's own writes name. -/
theorem commandsKeepOperandRegisters : Obligations.CommandsKeepOperandRegisters := by
  intro i s t h
  obtain ⟨r, hr⟩ := exec_is_finish i s
  obtain ⟨hwidth, hheight, hirqen, hsrc, -, hparams, -⟩ := finish_next_frame (hr ▸ h)
  obtain ⟨-, -, -, hhaz⟩ := finish_next_status (hr ▸ h)
  exact ⟨hwidth, hheight, hirqen, hsrc, hparams, hhaz, fun b => exec_keeps_bank h, exec_keeps_diff_outputs h⟩

/-! ### A pending command completes (40_command R109) -/

theorem AccessEffect.rstN_inbox {acc : Access} {a : BitVec 19} {s t : State} (h : AccessEffect acc a s t) :
    t.rstN = s.rstN ∧ t.inbox = s.inbox := by
  cases h <;> simp

theorem hostTurn_rstN_inbox (addr : Nat) (acc : Access) (s : State) :
    (hostTurn addr acc s).rstN = s.rstN ∧ (hostTurn addr acc s).inbox = s.inbox := by
  obtain ⟨heq, -⟩ | ⟨a, t, r, -, -, heff, -, heq⟩ := hostTurn_cases addr acc s <;> rw [heq]
  · exact ⟨rfl, rfl⟩
  · exact heff.rstN_inbox

/-- A host's turn abandons no command. -/
theorem hostTurn_pending_isSome (addr : Nat) (acc : Access) {s : State} (hs : s.pending.isSome = true) :
    (hostTurn addr acc s).pending.isSome = true := by
  obtain hkept | ⟨w, -, -, -, -, hpending⟩ := hostTurn_pending_cases addr acc s
  · rw [hkept, hs]
  · rw [hpending, Option.isSome_some]

/-- Within k steps no command is pending, or the run stops at the fault. -/
def EndsWithin (k : Nat) (s : State) : Prop :=
  ∃ j ≤ k, (∃ t, runFor j s = .next t ∧ t.pending = none) ∨ runFor j s = .fault .uninitRead

theorem EndsWithin.of_step {k : Nat} {s t : State} (hstep : step s = .next t) (h : EndsWithin k t) :
    EndsWithin (k + 1) s := by
  obtain ⟨j, hj, hend⟩ := h
  have hrun : runFor (j + 1) s = runFor j t := by simp only [runFor, hstep]
  exact ⟨j + 1, Nat.succ_le_succ hj, hrun ▸ hend⟩

theorem endsWithin_of_no_command {s : State} (h : s.pending = none) (k : Nat) : EndsWithin k s :=
  ⟨0, Nat.zero_le k, .inl ⟨s, rfl, h⟩⟩

/-- A step that is the engine's turn ends the pending command. -/
theorem endsWithin_of_engineTurn {s u : State} (hstep : step s = engineTurn u) (hrst : u.rstN = true)
    (hpending : u.pending.isSome = true) (k : Nat) : EndsWithin (k + 1) s := by
  obtain ⟨w, hw⟩ := Option.isSome_iff_exists.1 hpending
  obtain ⟨r, hr⟩ := runWord_is_finish w u
  rw [engineTurn_of_pending hrst hw, hr] at hstep
  cases hfinish : finish r u with
  | next t => exact .of_step (hstep.trans hfinish) (endsWithin_of_no_command (finish_next_status hfinish).1 k)
  | fault f => cases f; exact ⟨1, Nat.le_add_left 1 k, .inr (by simp only [runFor, hstep, hfinish])⟩
  | refused q => exact absurd hfinish (finish_ne_refused r u q)

/-- By the events listed before the engine moves: a transaction or a release keeps the command pending with one event fewer. -/
theorem endsWithin_of_pending (es : List Event) {s : State} (hin : s.inbox = es) (hrst : s.rstN = true)
    (hpending : s.pending.isSome = true) : EndsWithin (es.length + 1) s := by
  induction es generalizing s with
  | nil => exact endsWithin_of_engineTurn (step_of_no_event hin) hrst hpending 0
  | cons e es ih =>
    have hturn : step s = turn e (s.setInbox es) := by simp only [step, nextEvent, hin]
    cases e with
    | access addr acc =>
      obtain ⟨hrst', hin'⟩ := hostTurn_rstN_inbox addr acc (s.setInbox es)
      exact .of_step hturn (ih hin' (hrst'.trans hrst) (hostTurn_pending_isSome addr acc hpending))
    | engineTurn => exact endsWithin_of_engineTurn hturn hrst hpending _
    | resetAssert => exact .of_step hturn (endsWithin_of_no_command rfl _)
    | resetRelease => exact .of_step hturn (ih rfl rfl hpending)

/-- Settles O13: by induction on the events listed. -/
theorem pendingCommandCompletes : Obligations.PendingCommandCompletes :=
  fun s => endsWithin_of_pending s.inbox rfl

/-! ### What the host cannot change while BUSY = 1 (40_command R108, 70_reset R200, R201) -/

/-- The state with other values in the fields that a transaction can change while BUSY = 1. -/
def State.withHostFields (s : State) (status : Status) (irqen : BitVec 3) (draws : Nat) (outbox : List Response) : State :=
  { s with status := status, irqen := irqen, draws := draws, outbox := outbox }

section
variable {s : State} {status : Status} {irqen : BitVec 3} {draws : Nat} {outbox : List Response}

theorem AccessEffect.busy_changes_hostFields {acc : Access} {a : BitVec 19} {t : State} (h : AccessEffect acc a s t)
    (hs : s.status.busy = true) : t = s.withHostFields t.status t.irqen t.draws t.outbox := by
  cases h with
  | accepted | widthStored | heightStored | lenStored | srcStored | pbufStored => simp_all
  | _ => rfl

theorem hostTurn_busy_changes_hostFields (addr : Nat) (acc : Access) (hs : s.status.busy = true) :
    ∃ status irqen draws outbox, hostTurn addr acc s = s.withHostFields status irqen draws outbox := by
  obtain ⟨heq, -⟩ | ⟨a, t, r, -, -, heff, -, heq⟩ := hostTurn_cases addr acc s <;> rw [heq]
  · exact ⟨_, _, _, _, rfl⟩
  · rw [heff.busy_changes_hostFields hs]
    exact ⟨_, _, _, _, rfl⟩

/-- No command reads a field that the host can change while BUSY = 1. -/
theorem exec_withHostFields (i : Instr) (s : State) :
    ∃ r, exec i s = finish r s ∧ ∀ status irqen draws outbox,
      exec i (s.withHostFields status irqen draws outbox) = finish r (s.withHostFields status irqen draws outbox) := by
  cases i with
  | nop => exact ⟨.ok (.ok []), rfl, fun _ _ _ _ => rfl⟩
  | convert a => exact ⟨convertCmd a s, rfl, fun _ _ _ _ => rfl⟩
  | diff a b =>
    refine ⟨diffCmd a b s, rfl, fun _ _ _ _ => ?_⟩
    cases a <;> cases b <;> rfl

theorem applyWrite_withHostFields (s : State) (w : EngineWrite) :
    applyWrite (s.withHostFields status irqen draws outbox) w =
      (applyWrite s w).withHostFields status irqen draws outbox := by
  cases w with
  | pbuf b => cases b <;> rfl
  | len b => cases b <;> rfl
  | _ => rfl

theorem performWrites_withHostFields (ws : List EngineWrite) (s : State) :
    performWrites ws (s.withHostFields status irqen draws outbox) =
      (performWrites ws s).withHostFields status irqen draws outbox := by
  induction ws generalizing s with
  | nil => rfl
  | cons w ws ih => rw [performWrites_cons, applyWrite_withHostFields, ih, performWrites_cons]

/-- The outcomes of one computed result on two states that differ in the host's fields only: alike but for those fields, and
with the same STATUS, HAZ apart, if ERRV and ERR were the same before. -/
theorem finish_withHostFields {r : CmdResult} {u v : State} (hu : finish r s = .next u)
    (hv : finish r (s.withHostFields status irqen draws outbox) = .next v) :
    v = u.withHostFields v.status v.irqen v.draws v.outbox ∧
    (s.status.errv = status.errv → s.status.err = status.err →
      u.status.busy = v.status.busy ∧ u.status.done = v.status.done ∧ u.status.errv = v.status.errv ∧
      u.status.err = v.status.err) := by
  obtain ⟨ws, rfl, rfl⟩ | ⟨e, rfl, rfl⟩ := finish_eq_next.1 hu
  · cases hv
    rw [performWrites_withHostFields]
    exact ⟨rfl, fun herrv herr => by simp [State.withHostFields, herrv, herr]⟩
  · cases hv
    exact ⟨rfl, fun _ _ => ⟨rfl, rfl, rfl, rfl⟩⟩

end

/-- While BUSY = 1 and STATUS is as acceptance left it, a host's turn keeps ERRV and ERR (10_state R35, R37). -/
theorem LifecycleConsistent.hostTurn_error {s : State} (h : LifecycleConsistent s) (hs : s.status.busy = true) (addr : Nat)
    (acc : Access) :
    s.status.errv = (hostTurn addr acc s).status.errv ∧ s.status.err = (hostTurn addr acc s).status.err := by
  obtain ⟨-, hafter⟩ := lifecycleConsistent_kept.hostTurn addr acc h
  obtain ⟨-, hbefore⟩ := h
  obtain ⟨-, herrv, herr⟩ := hbefore hs
  obtain ⟨-, herrv', herr'⟩ := hafter (hostTurn_busy_stays addr acc hs)
  exact ⟨herrv.trans herrv'.symm, herr.trans herr'.symm⟩

/-- Settles O15: while BUSY = 1 a transaction changes no field a command reads, and a command's result is then the same. -/
theorem busyHostCannotAffectCommand : Obligations.BusyHostCannotAffectCommand := by
  intro s addr acc hbusy
  have herror : LifecycleConsistent s → _ := fun h => h.hostTurn_error hbusy addr acc
  obtain ⟨status, irqen, draws, outbox, hhost⟩ := hostTurn_busy_changes_hostFields addr acc hbusy
  rw [hhost] at herror ⊢
  refine ⟨rfl, fun i => ?_⟩
  obtain ⟨r, hbefore, hafter⟩ := exec_withHostFields i s
  rw [hbefore, hafter]
  refine ⟨fun f => by rw [finish_eq_fault, finish_eq_fault], fun u v hu hv => ?_⟩
  obtain ⟨hsame, hstatus⟩ := finish_withHostFields hu hv
  rw [hsame]
  refine ⟨rfl, rfl, rfl, rfl, rfl, rfl, rfl, rfl, rfl, rfl, fun h => ?_⟩
  obtain ⟨herrv, herr⟩ := herror h
  exact hstatus herrv herr

end Sys2Proof.Machine

/-! PROOFS. 41_convert: the closed form bit by bit, the two stages of CONVERT as its values, and how a CONVERT can end. -/

namespace Sys2Proof.Machine

/-! ### The closed form, bit by bit (41_convert R124) -/

/-- Where term b of a sum of bytes holds bit b only, no carry arises: bit i of the sum is bit i of term i. -/
theorem getLsbD_sum_of_single_bits {term : Nat → Byte} (single : ∀ b i, i ≠ b → (term b).getLsbD i = false)
    (k i : Nat) : ((List.range k).map term).sum.getLsbD i = (decide (i < k) && (term i).getLsbD i) := by
  induction k generalizing i with
  | zero => simp
  | succ k ih =>
    have hdisjoint : ((List.range k).map term).sum &&& term k = 0 := by
      refine BitVec.eq_of_getLsbD_eq fun i _ => ?_
      rw [BitVec.getLsbD_and, ih]
      by_cases hi : i = k
      · simp [hi]
      · simp [single k i hi]
    rw [List.range_succ, List.map_append, List.sum_append, List.map_singleton, List.sum_singleton,
      BitVec.add_eq_or_of_and_eq_zero _ _ hdisjoint, BitVec.getLsbD_or, ih]
    rcases lt_trichotomy i k with hi | rfl | hi
    · simp [hi, Nat.lt_succ_of_lt hi, single k i (Nat.ne_of_lt hi)]
    · simp
    · simp [show ¬ i < k by omega, show ¬ i < k + 1 by omega, single k i (Nat.ne_of_gt hi)]

theorem bitOf_getLsbD (v : Byte) (j i : Nat) : (bitOf v j).getLsbD i = (decide (i = 0) && v.getLsbD j) := by
  rw [bitOf, BitVec.getLsbD_and, BitVec.getLsbD_ushiftRight]
  by_cases hi : i = 0 <;> simp [hi, BitVec.getLsbD_one]

/-- A pixel moved to bit b of a byte (41_convert R120). -/
theorem shiftedPixel_getLsbD (src : Nat → Byte) (W x y b i : Nat) :
    (sourcePixel src W x y <<< b).getLsbD i =
      (decide (i = b ∧ i < 8) && (src (srcIndex W x y)).getLsbD (x % 8)) := by
  rw [sourcePixel, BitVec.getLsbD_shiftLeft, bitOf_getLsbD]
  by_cases hi : i = b
  · simp [hi]
  · by_cases hlt : i < b
    · simp [hi, hlt]
    · simp [hi, show i - b ≠ 0 by omega]

/-- Bit b of the byte at page p, column x is pixel (x, 8p + b), and 0 past the last row (41_convert R124, R126). -/
theorem closedByte_getLsbD (src : Nat → Byte) (W H p x b : Nat) :
    (closedByte src W H p x).getLsbD b =
      (decide (b < 8 ∧ 8 * p + b < H) && (src (srcIndex W x (8 * p + b))).getLsbD (x % 8)) := by
  rw [closedByte, getLsbD_sum_of_single_bits]
  · split
    · next hrow =>
      rw [shiftedPixel_getLsbD]
      simp [hrow]
    · next hrow => simp [hrow]
  · intro c i hi
    split
    · rw [shiftedPixel_getLsbD]
      simp [hi]
    · exact BitVec.getLsbD_zero

/-- Page-buffer pixel (x, y) of the closed form is source pixel (x, y) (41_convert R124). -/
theorem bitOf_closedByte (src : Nat → Byte) (W : Nat) {H y : Nat} (hy : y < H) (x : Nat) :
    bitOf (closedByte src W H (y / 8) x) (y % 8) = sourcePixel src W x y := by
  refine BitVec.eq_of_getLsbD_eq fun i _ => ?_
  rw [sourcePixel, bitOf_getLsbD, bitOf_getLsbD, closedByte_getLsbD, Nat.div_add_mod]
  simp [hy, Nat.mod_lt]

/-- The closed form depends on the pixels of its column only (41_convert R125). -/
theorem closedByte_congr {src src' : Nat → Byte} {W H x : Nat}
    (h : ∀ y < H, sourcePixel src' W x y = sourcePixel src W x y) (p : Nat) :
    closedByte src' W H p x = closedByte src W H p x := by
  unfold closedByte
  congr 1
  refine List.map_congr_left fun b _ => ?_
  split
  · next hrow => rw [h _ hrow]
  · rfl

/-! ### ACC: the closed form of the rows done so far (41_convert R120) -/

/-- Before the first row of page p, its byte is 0. -/
theorem closedByte_no_rows {p y : Nat} (h : y ≤ 8 * p) (src : Nat → Byte) (W x : Nat) : closedByte src W y p x = 0 := by
  refine BitVec.eq_of_getLsbD_eq fun b _ => ?_
  rw [closedByte_getLsbD]
  simp [show ¬ 8 * p + b < y by omega]

/-- One more row puts its pixel in bit `y mod 8`. -/
theorem closedByte_next_row (src : Nat → Byte) (W x y : Nat) :
    closedByte src W (y + 1) (y / 8) x = closedByte src W y (y / 8) x ||| sourcePixel src W x y <<< (y % 8) := by
  refine BitVec.eq_of_getLsbD_eq fun b hb => ?_
  rw [BitVec.getLsbD_or, closedByte_getLsbD, closedByte_getLsbD, shiftedPixel_getLsbD]
  rcases lt_trichotomy b (y % 8) with h | rfl | h
  · simp [show 8 * (y / 8) + b < y by omega, show 8 * (y / 8) + b < y + 1 by omega, Nat.ne_of_lt h]
  · simp [Nat.div_add_mod, hb]
  · simp [show ¬ 8 * (y / 8) + b < y by omega, show ¬ 8 * (y / 8) + b < y + 1 by omega, Nat.ne_of_gt h]

/-- Once y rows are done, page p gets no further row. -/
abbrev PageDone (H p y : Nat) : Prop := 8 * p + 8 ≤ y ∨ H ≤ y

/-- A page that is done holds its byte of the whole column. -/
theorem closedByte_of_pageDone {H p y : Nat} (h : PageDone H p y) (hy : y ≤ H) (src : Nat → Byte) (W x : Nat) :
    closedByte src W y p x = closedByte src W H p x := by
  refine BitVec.eq_of_getLsbD_eq fun b hb => ?_
  have hrow : 8 * p + b < y ↔ 8 * p + b < H := by omega
  simp only [closedByte_getLsbD, hrow]

/-! ### Written bytes -/

/-- A memory's byte at index i, for the indices that are written; the form of `State.srcByte`. -/
def Memory.byteAt (m : Memory 8) (i : Nat) : Byte := (Memory.read m i).getD 0

theorem State.srcByte_eq (s : State) : s.srcByte = Memory.byteAt s.src := rfl

theorem engineRead_of_allWritten {m : Memory 8} {n i : Nat} (h : AllWritten m n) (hi : i < n) :
    engineRead m i = .ok (Memory.byteAt m i) := by
  obtain ⟨v, hv⟩ := Option.isSome_iff_exists.1 (h i hi)
  rw [engineRead_eq_ok, Memory.byteAt, hv, Option.getD_some]

theorem not_allWritten_iff {m : Memory 8} {n : Nat} : ¬ AllWritten m n ↔ ∃ i < n, Memory.read m i = none := by
  simp

/-! ### Stage 1 (41_convert R120) -/

/-- The first x columns of INTER hold the closed-form bytes, column by column. -/
def ColumnsPacked (src : Nat → Byte) (W H x : Nat) (inter : Memory 8) : Prop :=
  ∀ c < x, ∀ p < pages H, Memory.read inter (c * pages H + p) = some (closedByte src W H p c)

/-- ACC and INTER once y rows of column x are done: ACC holds the rows of the page begun, INTER the columns before and the
pages that are done. -/
structure RowsPacked (src : Nat → Byte) (W H x y : Nat) (st : Byte × Memory 8) : Prop where
  acc : y < H → st.1 = closedByte src W y (y / 8) x
  before : ColumnsPacked src W H x st.2
  done : ∀ p < pages H, PageDone H p y → Memory.read st.2 (x * pages H + p) = some (closedByte src W H p x)

theorem ColumnsPacked.rowsPacked {src : Nat → Byte} {W H x : Nat} {inter : Memory 8}
    (h : ColumnsPacked src W H x inter) : RowsPacked src W H x 0 (0, inter) where
  acc _ := (closedByte_no_rows (Nat.zero_le _) src W x).symm
  before := h
  done p hp hdone := by
    unfold pages ceil8 at hp
    omega

theorem RowsPacked.columnsPacked {src : Nat → Byte} {W H x : Nat} {st : Byte × Memory 8}
    (h : RowsPacked src W H x H st) : ColumnsPacked src W H (x + 1) st.2 := by
  intro c hc p hp
  obtain hlt | rfl := Nat.lt_succ_iff_lt_or_eq.1 hc
  · exact h.before c hlt p hp
  · exact h.done p hp (.inr (le_refl _))

/-- A row inside a page: only ACC moves on. -/
theorem RowsPacked.keep {src : Nat → Byte} {W H x y : Nat} {st : Byte × Memory 8} (h : RowsPacked src W H x y st)
    (hy : y < H) (hinside : ¬ (y % 8 = 7 ∨ y = H - 1)) :
    RowsPacked src W H x (y + 1) (st.1 ||| sourcePixel src W x y <<< (y % 8), st.2) where
  acc _ := by rw [h.acc hy, ← closedByte_next_row, show (y + 1) / 8 = y / 8 by omega]
  before := h.before
  done p hp hdone := h.done p hp (by omega)

/-- The last row of a page: INTER gets the page's byte, ACC starts again. -/
theorem RowsPacked.emit {src : Nat → Byte} {W H x y : Nat} {st : Byte × Memory 8} (h : RowsPacked src W H x y st)
    (hy : y < H) (hlast : y % 8 = 7 ∨ y = H - 1) :
    RowsPacked src W H x (y + 1)
      (0, Memory.write st.2 (x * pages H + y / 8) (st.1 ||| sourcePixel src W x y <<< (y % 8))) where
  acc hnext := (closedByte_no_rows (by omega) src W x).symm
  before c hc p hp := by
    rw [Memory.read_write_other, h.before c hc p hp]
    intro heq
    exact Nat.ne_of_lt hc (pageIndex_injective hp (page_lt_pages hy) heq).1
  done p hp hdone := by
    by_cases hpage : p = y / 8
    · subst hpage
      rw [Memory.read_write_same, h.acc hy, ← closedByte_next_row, closedByte_of_pageDone hdone hy]
    · rw [Memory.read_write_other _ (by omega)]
      refine h.done p hp ?_
      unfold pages ceil8 at hp
      omega

/-- One turn of the inner loop on a written bitmap. -/
theorem RowsPacked.stage1Row {src : Memory 8} {W H x y : Nat} {st : Byte × Memory 8} (hsrc : AllWritten src (srcBytes W H))
    (hx : x < W) (hy : y < H) (h : RowsPacked (Memory.byteAt src) W H x y st) :
    ∃ st', stage1Row src W H x st y = .ok st' ∧ RowsPacked (Memory.byteAt src) W H x (y + 1) st' := by
  rw [Machine.stage1Row, engineRead_of_allWritten hsrc (srcIndex_lt_srcBytes hx hy)]
  by_cases hlast : y % 8 = 7 ∨ y = H - 1
  · exact ⟨_, if_pos hlast, h.emit hy hlast⟩
  · exact ⟨_, if_neg hlast, h.keep hy hlast⟩

theorem ColumnsPacked.stage1Column {src : Memory 8} {W H x : Nat} {inter : Memory 8} (hsrc : AllWritten src (srcBytes W H))
    (hx : x < W) (h : ColumnsPacked (Memory.byteAt src) W H x inter) :
    ∃ inter', stage1Column src W H inter x = .ok inter' ∧ ColumnsPacked (Memory.byteAt src) W H (x + 1) inter' := by
  obtain ⟨st, hst, hrows⟩ := loop_completes (RowsPacked (Memory.byteAt src) W H x) h.rowsPacked
    fun y _ hy => RowsPacked.stage1Row hsrc hx hy
  exact ⟨st.2, by rw [Machine.stage1Column, hst], hrows.columnsPacked⟩

theorem stage1_of_allWritten {src : Memory 8} {W H : Nat} (hsrc : AllWritten src (srcBytes W H)) :
    ∃ inter, stage1 src W H = .ok inter ∧ ColumnsPacked (Memory.byteAt src) W H W inter :=
  loop_completes (ColumnsPacked (Memory.byteAt src) W H) (fun _ hc => absurd hc (Nat.not_lt_zero _))
    fun _ _ hx => ColumnsPacked.stage1Column hsrc hx

/-- A pixel whose byte is unwritten stops stage 1, whatever was done before (41_convert R135). -/
theorem stage1_of_unwritten {src : Memory 8} {W H x y : Nat} (hx : x < W) (hy : y < H)
    (h : Memory.read src (srcIndex W x y) = none) : stage1 src W H = .error .uninitRead := by
  have hrow : ∀ st, stage1Row src W H x st y = .error .uninitRead := fun st => by
    rw [stage1Row, engineRead_eq_error.2 h]
  exact loop_faults hx fun inter => by rw [stage1Column, loop_faults hy hrow]

/-- Every index below `srcbytes` is the byte of a pixel, padding and all (41_convert R127). -/
theorem exists_pixel_of_lt_srcBytes {W H i : Nat} (hi : i < srcBytes W H) : ∃ x < W, ∃ y < H, srcIndex W x y = i := by
  have hpos : 0 < stride W := Nat.pos_of_mul_pos_right (Nat.zero_lt_of_lt hi)
  have hcol : i % stride W < stride W := Nat.mod_lt _ hpos
  refine ⟨8 * (i % stride W), ?_, i / stride W, Nat.div_lt_of_lt_mul hi, ?_⟩
  · have : stride W = (W + 7) / 8 := rfl
    omega
  · rw [srcIndex, Nat.mul_div_cancel_left _ (by decide), Nat.div_add_mod]

/-! ### Stage 2 (41_convert R122) -/

theorem pageIndex_div {W x : Nat} (p : Nat) (hx : x < W) : (p * W + x) / W = p := by
  rw [Nat.mul_comm, Nat.mul_add_div (Nat.zero_lt_of_lt hx), Nat.div_eq_of_lt hx, Nat.add_zero]

theorem pageIndex_mod {W x : Nat} (p : Nat) (hx : x < W) : (p * W + x) % W = x := by
  rw [Nat.mul_add_mod', Nat.mod_eq_of_lt hx]

/-- The first c bytes of page p. -/
def pageColumns (src : Nat → Byte) (W H p c : Nat) : List Byte := (List.range c).map fun x => closedByte src W H p x

theorem pageColumns_zero (src : Nat → Byte) (W H p : Nat) : pageColumns src W H p 0 = [] := rfl

theorem pageColumns_succ (src : Nat → Byte) (W H p c : Nat) :
    pageColumns src W H p (c + 1) = pageColumns src W H p c ++ [closedByte src W H p c] := by
  simp [pageColumns, List.range_succ]

/-- The page-major buffer of the closed form, its first P pages. -/
def pageMajor (src : Nat → Byte) (W H P : Nat) : List Byte := (List.range P).flatMap fun p => pageColumns src W H p W

theorem pageMajor_succ (src : Nat → Byte) (W H P : Nat) :
    pageMajor src W H (P + 1) = pageMajor src W H P ++ pageColumns src W H P W := by
  simp [pageMajor, List.range_succ]

/-- Index i of the buffer is column `i mod W` of page `i / W`. -/
theorem pageMajor_eq_map (src : Nat → Byte) (W H P : Nat) :
    pageMajor src W H P = (List.range (W * P)).map fun i => closedByte src W H (i / W) (i % W) := by
  induction P with
  | zero => rfl
  | succ P ih =>
    rw [pageMajor_succ, ih, pageColumns, Nat.mul_succ, List.range_add, List.map_append, List.map_map]
    congr 1
    refine List.map_congr_left fun x hx => ?_
    have hx : x < W := List.mem_range.1 hx
    rw [Function.comp_apply, Nat.mul_comm W P, pageIndex_div P hx, pageIndex_mod P hx]

theorem pageMajor_getElem? (src : Nat → Byte) {W P i : Nat} (H : Nat) (hi : i < W * P) :
    (pageMajor src W H P)[i]? = some (closedByte src W H (i / W) (i % W)) := by
  simp [pageMajor_eq_map, hi]

@[simp] theorem pageMajor_length (src : Nat → Byte) (W H P : Nat) : (pageMajor src W H P).length = W * P := by
  simp [pageMajor_eq_map]

theorem Memory.write_ofListFrom_end {w : Nat} (vs : List (BitVec w)) (i : Nat) (v : BitVec w) :
    Memory.write (Memory.ofListFrom i vs) (i + vs.length) v = Memory.ofListFrom i (vs ++ [v]) := by
  induction vs generalizing i with
  | nil => rfl
  | cons u vs ih =>
    simp only [Memory.ofListFrom, Memory.write, List.length_cons, List.cons_append]
    rw [if_neg (by omega), if_neg (by omega), ← ih, show i + (vs.length + 1) = i + 1 + vs.length by omega]

theorem Memory.risesAbove_ofListFrom {w : Nat} (vs : List (BitVec w)) {lo i : Nat} (h : lo < i) :
    Memory.risesAbove lo (Memory.ofListFrom i vs) = true := by
  induction vs generalizing lo i with
  | nil => rfl
  | cons v vs ih => simp [Memory.ofListFrom, Memory.risesAbove, h, ih (Nat.lt_succ_self i)]

/-- A list laid out from index i on is a canonical memory. -/
theorem Memory.wf_ofListFrom {w : Nat} (vs : List (BitVec w)) (i : Nat) : Memory.wf (Memory.ofListFrom i vs) = true := by
  cases vs with
  | nil => rfl
  | cons v vs => exact Memory.risesAbove_ofListFrom vs (Nat.lt_succ_self i)

@[simp] theorem Memory.values_ofListFrom {w : Nat} (vs : List (BitVec w)) (i : Nat) :
    Memory.values (Memory.ofListFrom i vs) = vs := by
  induction vs generalizing i with
  | nil => rfl
  | cons v vs ih => exact congrArg (v :: ·) (ih (i + 1))

/-- A loop whose every turn is known runs from the first state to the last. -/
theorem loop_eq_ok {σ : Type} {f : σ → Nat → Except Fault σ} {n : Nat} (st : Nat → σ)
    (turn : ∀ k < n, f (st k) k = .ok (st (k + 1))) : loop f (st 0) n = .ok (st n) := by
  induction n with
  | zero => rfl
  | succ n ih =>
    rw [loop_succ, ih fun k hk => turn k (Nat.lt_succ_of_lt hk)]
    exact turn n (Nat.lt_succ_self n)

/-- The output once c bytes of a page are copied. -/
def pageMajorPartial (src : Nat → Byte) (W H band c : Nat) : Memory 8 :=
  Memory.ofListFrom 0 (pageMajor src W H band ++ pageColumns src W H band c)

theorem stage2Byte_of_columnsPacked {src : Nat → Byte} {W H band col : Nat} {inter : Memory 8}
    (h : ColumnsPacked src W H W inter) (hband : band < pages H) (hcol : col < W) :
    stage2Byte inter W H band (pageMajorPartial src W H band col) col = .ok (pageMajorPartial src W H band (col + 1)) := by
  have hend : band * W + col = 0 + (pageMajor src W H band ++ pageColumns src W H band col).length := by
    simp [pageColumns, Nat.mul_comm]
  rw [stage2Byte, engineRead_eq_ok.2 (h col hcol band hband)]
  simp only [pageMajorPartial, hend, Memory.write_ofListFrom_end, pageColumns_succ, List.append_assoc]

theorem stage2Band_of_columnsPacked {src : Nat → Byte} {W H band : Nat} {inter : Memory 8}
    (h : ColumnsPacked src W H W inter) (hband : band < pages H) :
    stage2Band inter W H (Memory.ofListFrom 0 (pageMajor src W H band)) band =
      .ok (Memory.ofListFrom 0 (pageMajor src W H (band + 1))) := by
  have hloop := loop_eq_ok (pageMajorPartial src W H band) fun _ => stage2Byte_of_columnsPacked h hband
  rwa [pageMajorPartial, pageMajorPartial, ← pageMajor_succ, pageColumns_zero, List.append_nil] at hloop

theorem stage2_of_columnsPacked {src : Nat → Byte} {W H : Nat} {inter : Memory 8} (h : ColumnsPacked src W H W inter) :
    stage2 inter W H = .ok (Memory.ofListFrom 0 (pageMajor src W H (pages H))) :=
  loop_eq_ok (fun band => Memory.ofListFrom 0 (pageMajor src W H band)) fun _ => stage2Band_of_columnsPacked h

/-! ### Both stages -/

/-- On a written bitmap the two stages give the closed form, page by page (41_convert R124). -/
theorem convertBuffer_of_allWritten {src : Memory 8} {W H : Nat} (hsrc : AllWritten src (srcBytes W H)) :
    convertBuffer src W H = .ok (Memory.ofListFrom 0 (pageMajor (Memory.byteAt src) W H (pages H))) := by
  obtain ⟨inter, hinter, hpacked⟩ := stage1_of_allWritten hsrc
  rw [convertBuffer, hinter]
  exact stage2_of_columnsPacked hpacked

/-- An unwritten byte of the bitmap, a padding byte included, is a fault (41_convert R135). -/
theorem convertBuffer_of_not_allWritten {src : Memory 8} {W H : Nat} (h : ¬ AllWritten src (srcBytes W H)) :
    convertBuffer src W H = .error .uninitRead := by
  obtain ⟨i, hi, hnone⟩ := not_allWritten_iff.1 h
  obtain ⟨x, hx, y, hy, rfl⟩ := exists_pixel_of_lt_srcBytes hi
  rw [convertBuffer, stage1_of_unwritten hx hy hnone]

/-- Settles O26: the two stages over a byte list, laid out as a memory, give the closed form. -/
theorem refConvertIsClosedForm : Obligations.RefConvertIsClosedForm := by
  intro W H src _ _ hlen
  have hbytes : Memory.byteAt (Memory.ofListFrom 0 src) = fun i => src.getD i 0 := by
    funext i
    simp [Memory.byteAt, Memory.read_ofListFrom]
  have hwritten : AllWritten (Memory.ofListFrom 0 src) (srcBytes W H) := fun i hi => by
    simp [Memory.read_ofListFrom, Nat.lt_of_lt_of_le hi hlen]
  rw [refConvert, convertBuffer_of_allWritten hwritten, hbytes]
  exact congrArg Except.ok (Memory.values_ofListFrom _ 0)

/-! ### How a CONVERT ends -/

theorem exec_convert (a : Bank) (s : State) : exec (.convert a) s = finish (convertCmd a s) s := rfl

theorem finish_of_error (e : CmdError) (s : State) : finish (.ok (.error e)) s = .next (s.failed e) := rfl

/-- 41_convert R117: before any other check, and whatever SRC holds. -/
theorem exec_convert_of_zero_dimension (a : Bank) {s : State} (h : s.W = 0 ∨ s.H = 0) :
    exec (.convert a) s = .next (s.failed .invalidDimensions) := by
  have hcmd : convertCmd a s = .ok (.error .invalidDimensions) := if_pos h
  rw [exec_convert, hcmd, finish_of_error]

/-- 41_convert R118, R119: either buffer too large. -/
theorem exec_convert_of_too_large (a : Bank) {s : State} (hW : 0 < s.W) (hH : 0 < s.H)
    (h : srcBytes s.W s.H > s.params.srcCap ∨ outBytes s.W s.H > s.params.pbufCap) :
    exec (.convert a) s = .next (s.failed .allocationFailure) := by
  have hcmd : convertCmd a s = .ok (.error .allocationFailure) := by
    refine (if_neg (show ¬ (s.W = 0 ∨ s.H = 0) by omega)).trans ?_
    by_cases hsrc : srcBytes s.W s.H > s.params.srcCap
    · exact if_pos hsrc
    · exact (if_neg hsrc).trans (if_pos (h.resolve_left hsrc))
  rw [exec_convert, hcmd, finish_of_error]

/-- A check of CONVERT fails: it completes with an error. -/
theorem exec_convert_of_not_legal (a : Bank) {s : State} (h : ¬ ConvertLegal s) :
    ∃ e, exec (.convert a) s = .next (s.failed e) := by
  by_cases hdim : s.W = 0 ∨ s.H = 0
  · exact ⟨_, exec_convert_of_zero_dimension a hdim⟩
  · refine ⟨_, exec_convert_of_too_large a (by omega) (by omega) ?_⟩
    unfold ConvertLegal at h
    omega

/-- The checks pass: CONVERT is its two stages. -/
theorem convertCmd_of_legal (a : Bank) {s : State} (h : ConvertLegal s) :
    convertCmd a s = (convertBuffer s.src s.W s.H).map fun out => .ok (convertWrites a s.W s.H out) := by
  obtain ⟨hW, hH, hsrc, hout⟩ := h
  refine (if_neg (show ¬ (s.W = 0 ∨ s.H = 0) by omega)).trans ?_
  refine (if_neg (Nat.not_lt_of_le hsrc)).trans ((if_neg (Nat.not_lt_of_le hout)).trans ?_)
  change _ = Except.map _ (convertBuffer s.src s.width.toNat s.height.toNat)
  cases convertBuffer s.src s.width.toNat s.height.toNat <;> rfl

theorem exec_convert_of_unwritten (a : Bank) {s : State} (legal : ConvertLegal s)
    (h : ¬ AllWritten s.src (srcBytes s.W s.H)) : exec (.convert a) s = .fault .uninitRead :=
  finish_eq_fault.2 (by rw [convertCmd_of_legal a legal, convertBuffer_of_not_allWritten h]; rfl)

/-- The state after a successful CONVERT a: the closed form over bank a, and LEN[a] = n (41_convert R123, R124). -/
def State.converted (s : State) (a : Bank) : State :=
  (performWrites (convertWrites a s.W s.H (Memory.ofListFrom 0 (pageMajor s.srcByte s.W s.H (pages s.H)))) s).complete

theorem exec_convert_of_allWritten (a : Bank) {s : State} (legal : ConvertLegal s)
    (h : AllWritten s.src (srcBytes s.W s.H)) : exec (.convert a) s = .next (s.converted a) :=
  finish_eq_next.2 (.inl ⟨_, by rw [convertCmd_of_legal a legal, convertBuffer_of_allWritten h, ← State.srcByte_eq]; rfl, rfl⟩)

/-- Everything a CONVERT can do: fail a check, meet an unwritten byte, or write the closed form. -/
theorem exec_convert_cases (a : Bank) (s : State) :
    (¬ ConvertLegal s ∧ ∃ e, exec (.convert a) s = .next (s.failed e)) ∨
    (ConvertLegal s ∧ ¬ AllWritten s.src (srcBytes s.W s.H) ∧ exec (.convert a) s = .fault .uninitRead) ∨
    (ConvertLegal s ∧ AllWritten s.src (srcBytes s.W s.H) ∧ exec (.convert a) s = .next (s.converted a)) := by
  by_cases legal : ConvertLegal s
  · by_cases hsrc : AllWritten s.src (srcBytes s.W s.H)
    · exact .inr (.inr ⟨legal, hsrc, exec_convert_of_allWritten a legal hsrc⟩)
    · exact .inr (.inl ⟨legal, hsrc, exec_convert_of_unwritten a legal hsrc⟩)
  · exact .inl ⟨legal, exec_convert_of_not_legal a legal⟩

/-! ### The state after a successful CONVERT -/

@[simp] theorem State.converted_status (s : State) (a : Bank) : (s.converted a).status = s.status.succeeded := by
  rw [converted, complete_status, performWrites_status]
  rfl

@[simp] theorem State.converted_pending (s : State) (a : Bank) : (s.converted a).pending = none := rfl

/-- Bank a after the commit: the closed form below n, the bytes from before elsewhere (41_convert R129). -/
theorem State.read_converted_pbuf (s : State) (a : Bank) (i : Nat) :
    Memory.read ((s.converted a).pbuf a) i =
      if i < outBytes s.W s.H then some (closedByte s.srcByte s.W s.H (i / s.W) (i % s.W))
      else Memory.read (s.pbuf a) i := by
  rw [converted, complete_pbuf, performWrites_convertWrites, setLen_pbuf, setPbuf_pbuf_same,
    read_writeOver _ _ _ (Memory.wf_ofListFrom _ 0), Memory.read_ofListFrom, if_pos (Nat.zero_le i), Nat.sub_zero]
  by_cases hi : i < outBytes s.W s.H
  · rw [if_pos hi, pageMajor_getElem? _ _ hi]
  · rw [if_neg hi, List.getElem?_eq_none ((pageMajor_length _ _ _ _).trans_le (Nat.le_of_not_lt hi))]

/-- The byte at page p, column x. -/
theorem State.read_converted_page (s : State) (a : Bank) {p x : Nat} (hp : p < pages s.H) (hx : x < s.W) :
    Memory.read ((s.converted a).pbuf a) (p * s.W + x) = some (closedByte s.srcByte s.W s.H p x) := by
  have hlt : p * s.W + x < outBytes s.W s.H := pageIndex_lt hx hp
  rw [read_converted_pbuf, if_pos hlt, pageIndex_div p hx, pageIndex_mod p hx]

theorem State.converted_len (s : State) (a : Bank) : (s.converted a).len a = BitVec.ofNat 17 (outBytes s.W s.H) := by
  rw [converted, complete_len, performWrites_convertWrites, setLen_len_same]

/-- LEN[a] has room for n, for a capacity is at most 65536 (00_scope R9). -/
theorem State.converted_len_toNat {s : State} (a : Bank) (legal : ConvertLegal s) :
    ((s.converted a).len a).toNat = outBytes s.W s.H := by
  obtain ⟨-, -, -, hout⟩ := legal
  rw [converted_len, BitVec.toNat_ofNat, Nat.mod_eq_of_lt]
  exact Nat.lt_of_le_of_lt (hout.trans (pbufCap_le s.params)) (by decide)

/-! ### The statements about CONVERT -/

/-- Settles O19: the commit stores the closed form of the two stages. -/
theorem convertGivesPageMajorBuffer : Obligations.ConvertGivesPageMajorBuffer := fun a s legal hsrc =>
  ⟨s.converted a, exec_convert_of_allWritten a legal hsrc, fun _ hp _ hx => s.read_converted_page a hp hx,
    fun x hx _ hy => ⟨_, s.read_converted_page a (page_lt_pages hy) hx, bitOf_closedByte _ _ hy x⟩,
    State.converted_len_toNat a legal, s.converted_status a, s.converted_pending a⟩

/-- Settles O20: the frame of every completion, and what the commit or the error leaves in bank a. -/
theorem convertFrame : Obligations.ConvertFrame := by
  intro a s t h
  have hfinish : finish (convertCmd a s) s = .next t := exec_convert a s ▸ h
  obtain ⟨hwidth, hheight, hirqen, hsrc, hrstN, hparams, hdraws, hinbox, houtbox⟩ := finish_next_frame hfinish
  obtain ⟨-, -, -, hhaz⟩ := finish_next_status hfinish
  obtain ⟨hdiffmem, hdcount⟩ := exec_keeps_diff_outputs h (by simp)
  have hbanks : ∀ b, b ≠ a → t.pbuf b = s.pbuf b ∧ t.len b = s.len b := fun b hb =>
    exec_keeps_bank h (by simpa using hb.symm)
  have hbank : (∀ i, ¬ i < outBytes s.W s.H → Memory.read (t.pbuf a) i = Memory.read (s.pbuf a) i) ∧
      (t.status = s.status.succeeded ∨
        (∃ e, t.status = s.status.failed e) ∧ t.pbuf a = s.pbuf a ∧ t.len a = s.len a) := by
    obtain ⟨-, e, hfail⟩ | ⟨-, -, hfault⟩ | ⟨-, -, hdone⟩ := exec_convert_cases a s
    · obtain rfl := Host.Outcome.next.inj (hfail.symm.trans h)
      have hpbuf : (s.failed e).pbuf a = s.pbuf a := by cases a <;> rfl
      exact ⟨fun i _ => by rw [hpbuf], .inr ⟨⟨e, rfl⟩, hpbuf, by cases a <;> rfl⟩⟩
    · cases hfault.symm.trans h
    · obtain rfl := Host.Outcome.next.inj (hdone.symm.trans h)
      exact ⟨fun i hi => by rw [State.read_converted_pbuf, if_neg hi], .inl (s.converted_status a)⟩
  exact ⟨hbank.1, hbanks, hsrc, hdiffmem, hdcount, hwidth, hheight, hirqen, hrstN, hparams, hdraws, hinbox, houtbox, hhaz,
    hbank.2⟩

/-- Settles O21: the first check. -/
theorem convertZeroDimensionFails : Obligations.ConvertZeroDimensionFails :=
  ⟨rfl, fun a s h => exec_convert_of_zero_dimension a (by simpa [State.W, State.H, BitVec.toNat_eq] using h)⟩

/-- Settles O22: the second and third checks. -/
theorem convertTooLargeFails : Obligations.ConvertTooLargeFails :=
  ⟨rfl, fun a _ hwidth hheight =>
    exec_convert_of_too_large a (BitVec.toNat_pos_of_ne_zero hwidth) (BitVec.toNat_pos_of_ne_zero hheight)⟩

/-- Settles O23: of the three ways a CONVERT can end, the fault is the one with an unwritten byte. -/
theorem convertFaultsOnUnwrittenSource : Obligations.ConvertFaultsOnUnwrittenSource := by
  intro a s
  rw [← not_allWritten_iff]
  obtain ⟨hillegal, e, hend⟩ | ⟨legal, hsrc, hend⟩ | ⟨legal, hsrc, hend⟩ := exec_convert_cases a s
  · exact iff_of_false (by simp [hend]) fun ⟨legal, _⟩ => hillegal legal
  · exact iff_of_true hend ⟨legal, hsrc⟩
  · exact iff_of_false (by simp [hend]) fun ⟨_, hnot⟩ => hnot hsrc

/-- Settles O24: each byte of the closed form is made of the pixels of its column. -/
theorem convertDependsOnPixelsOnly : Obligations.ConvertDependsOnPixelsOnly := by
  intro a s s' hwidth hheight hparams legal hsrc hsrc' hpixels
  have hW : s'.W = s.W := congrArg BitVec.toNat hwidth
  have hH : s'.H = s.H := congrArg BitVec.toNat hheight
  have legal' : ConvertLegal s' := by rwa [ConvertLegal, hW, hH, hparams]
  refine ⟨s.converted a, s'.converted a, exec_convert_of_allWritten a legal hsrc,
    exec_convert_of_allWritten a legal' (by rwa [hW, hH]), by rw [State.converted_len, State.converted_len, hW, hH], ?_⟩
  intro i hi
  have hcol : i % s.W < s.W := Nat.mod_lt _ legal.1
  rw [State.read_converted_pbuf, State.read_converted_pbuf, hW, hH, if_pos hi, if_pos hi,
    closedByte_congr (fun y hy => hpixels _ hcol y hy)]

/-- Settles O25: in the last page the rows from `H mod 8` on are past the bitmap. -/
theorem convertPartialPageIsZeroFilled : Obligations.ConvertPartialPageIsZeroFilled := by
  refine ⟨rfl, fun a s legal hsrc hpartial => ⟨s.converted a, exec_convert_of_allWritten a legal hsrc, fun x hx => ?_⟩⟩
  have hlast : pages s.H - 1 = s.H / 8 := by
    unfold pages ceil8
    omega
  have hpage : s.H / 8 < pages s.H := by
    unfold pages ceil8
    omega
  rw [hlast]
  refine ⟨_, s.read_converted_page a hpage hx, fun j hj => ?_⟩
  rw [closedByte_getLsbD]
  simp [show ¬ 8 * (s.H / 8) + j < s.H by omega]

end Sys2Proof.Machine

/-! PROOFS. 42_diff: RefDiff as the list of the changed addresses, the laws of ApplyDiff, and how a DIFF can end. -/

namespace Sys2Proof.Machine

/-! ### RefDiff: the changed addresses in ascending order, each with the new byte (42_diff R144) -/

/-- The addresses at which two buffers differ, ascending. -/
def changedAddresses (prev next : List Byte) : List Nat :=
  (List.range prev.length).filter fun k => prev[k]? ≠ next[k]?

/-- The entry of address k, where the scan of `next` begins at address i. -/
def newEntry (i : Nat) (next : List Byte) (k : Nat) : DiffEntry := ⟨BitVec.ofNat 16 (i + k), next.getD k 0⟩

theorem newEntry_succ (i : Nat) (q : Byte) (qs : List Byte) (k : Nat) :
    newEntry i (q :: qs) (k + 1) = newEntry (i + 1) qs k := by
  simp [newEntry, Nat.add_assoc, Nat.add_comm 1 k]

theorem changedAddresses_cons (p q : Byte) (ps qs : List Byte) :
    changedAddresses (p :: ps) (q :: qs) =
      (if p ≠ q then [0] else []) ++ (changedAddresses ps qs).map Nat.succ := by
  rw [changedAddresses, List.length_cons, List.range_succ_eq_map, List.filter_cons, List.filter_map]
  by_cases h : p = q <;> simp [h, changedAddresses, Function.comp_def]

theorem refDiffFrom_eq_map (i : Nat) {ps qs : List Byte} (h : ps.length = qs.length) :
    refDiffFrom i ps qs = (changedAddresses ps qs).map (newEntry i qs) := by
  induction ps generalizing i qs with
  | nil => rfl
  | cons p ps ih =>
    cases qs with
    | nil => cases h
    | cons q qs =>
      have htail : (changedAddresses ps qs).map (newEntry (i + 1) qs) =
          ((changedAddresses ps qs).map Nat.succ).map (newEntry i (q :: qs)) := by
        simp [newEntry_succ]
      rw [refDiffFrom, ih (i + 1) (Nat.succ.inj h), changedAddresses_cons, List.map_append, ← htail]
      by_cases hpq : p = q
      · simp [hpq]
      · simp [hpq, newEntry]

theorem refDiff_eq_map {prev next : List Byte} (h : prev.length = next.length) :
    refDiff prev next = (changedAddresses prev next).map (newEntry 0 next) :=
  refDiffFrom_eq_map 0 h

/-- An address of a buffer fits the 16 bits of an entry (00_scope R6, R9). -/
theorem newEntry_addr {k : Nat} (hk : k < 65536) (next : List Byte) : (newEntry 0 next k).addr.toNat = k := by
  simp [newEntry, Nat.mod_eq_of_lt hk]

theorem mem_changedAddresses {prev next : List Byte} {k : Nat} :
    k ∈ changedAddresses prev next ↔ k < prev.length ∧ prev[k]? ≠ next[k]? := by
  simp [changedAddresses]

theorem changedAddresses_rise (prev next : List Byte) : (changedAddresses prev next).Pairwise (· < ·) :=
  List.Pairwise.filter _ List.pairwise_lt_range

section

variable {prev next : List Byte} (hlen : prev.length = next.length)
include hlen

/-- An entry is listed exactly when its address is a changed one and it holds the new byte (42_diff R144). -/
theorem mem_refDiff (hcap : prev.length ≤ 65536) (e : DiffEntry) :
    e ∈ refDiff prev next ↔
      e.addr.toNat < prev.length ∧ prev[e.addr.toNat]? ≠ next[e.addr.toNat]? ∧ next[e.addr.toNat]? = some e.value := by
  rw [refDiff_eq_map hlen, List.mem_map]
  constructor
  · rintro ⟨k, hk, rfl⟩
    obtain ⟨hlt, hne⟩ := mem_changedAddresses.1 hk
    rw [newEntry_addr (hlt.trans_le hcap)]
    exact ⟨hlt, hne, by simp [newEntry, ← hlen, hlt]⟩
  · rintro ⟨hlt, hne, hvalue⟩
    refine ⟨e.addr.toNat, mem_changedAddresses.2 ⟨hlt, hne⟩, ?_⟩
    simp [newEntry, List.getD_eq_getElem?_getD, hvalue]

/-- 42_diff R147. -/
theorem refDiff_rises (hcap : prev.length ≤ 65536) : (refDiff prev next).Pairwise fun d e => d.addr < e.addr := by
  rw [refDiff_eq_map hlen, List.pairwise_map]
  refine (changedAddresses_rise prev next).imp_of_mem fun {j k} hj hk hjk => ?_
  have hfits : ∀ i ∈ changedAddresses prev next, i < 65536 := fun i hi => (mem_changedAddresses.1 hi).1.trans_le hcap
  rwa [BitVec.lt_def, newEntry_addr (hfits j hj), newEntry_addr (hfits k hk)]

/-- 42_diff R157: the bound is reached exactly when every byte differs. -/
theorem refDiff_length_eq_iff :
    (refDiff prev next).length = prev.length ↔ ∀ k < prev.length, prev[k]? ≠ next[k]? := by
  have hall := List.length_filter_eq_length_iff (l := List.range prev.length) (p := fun k => prev[k]? ≠ next[k]?)
  rw [List.length_range] at hall
  rw [refDiff_eq_map hlen, List.length_map, changedAddresses, hall]
  simp

end

/-- 42_diff R148. -/
theorem refDiff_self (bytes : List Byte) : refDiff bytes bytes = [] := by
  rw [refDiff_eq_map rfl, changedAddresses]
  simp

/-- Settles O28: RefDiff is the entries of the changed addresses, and those rise. -/
theorem refDiffListsChangedBytes : Obligations.RefDiffListsChangedBytes :=
  fun _ _ hlen hcap => ⟨mem_refDiff hlen hcap, refDiff_rises hlen hcap⟩

/-! ### ApplyDiff (42_diff R152 to R154) -/

@[simp] theorem applyDiff_nil (buf : List Byte) : applyDiff buf [] = buf := rfl

@[simp] theorem applyDiff_cons (buf : List Byte) (e : DiffEntry) (d : List DiffEntry) :
    applyDiff buf (e :: d) = applyDiff (buf.set e.addr.toNat e.value) d := rfl

theorem applyDiff_snoc (buf : List Byte) (d : List DiffEntry) (e : DiffEntry) :
    applyDiff buf (d ++ [e]) = (applyDiff buf d).set e.addr.toNat e.value := by
  simp [applyDiff]

/-- What an entry wrote before d does not matter if the entry is written again after d. -/
theorem applyDiff_set_overwritten (buf : List Byte) (e : DiffEntry) (d : List DiffEntry) :
    (applyDiff (buf.set e.addr.toNat e.value) d).set e.addr.toNat e.value =
      (applyDiff buf d).set e.addr.toNat e.value := by
  induction d generalizing buf with
  | nil => simp
  | cons f d ih =>
    rw [applyDiff_cons, applyDiff_cons]
    by_cases h : e.addr.toNat = f.addr.toNat
    · rw [h, List.set_set]
    · rw [List.set_comm _ _ h, ih]

/-- Settles O36: by induction on the entries from the last one back, which is the write that stands at its address. -/
theorem applyDiffIsIdempotent : Obligations.ApplyDiffIsIdempotent := by
  intro buf d
  induction d using List.reverseRecOn with
  | nil => rfl
  | append_singleton d e ih =>
    rw [applyDiff_snoc, applyDiff_snoc, applyDiff_set_overwritten, ih]

/-- The round trip from address `done.length` on, with the bytes below it already those of `next`. -/
theorem applyDiff_refDiffFrom {done ps qs : List Byte} (h : ps.length = qs.length)
    (hcap : done.length + ps.length ≤ 65536) :
    applyDiff (done ++ ps) (refDiffFrom done.length ps qs) = done ++ qs := by
  induction ps generalizing done qs with
  | nil => rw [List.length_eq_zero_iff.1 h.symm]; rfl
  | cons p ps ih =>
    cases qs with
    | nil => cases h
    | cons q qs =>
      rw [List.length_cons] at hcap
      have hnext := ih (done := done ++ [q]) (Nat.succ.inj h) (by simp; omega)
      rw [List.length_append, List.append_assoc, List.append_assoc] at hnext
      have haddr : (BitVec.ofNat 16 done.length).toNat = done.length := by
        rw [BitVec.toNat_ofNat, Nat.mod_eq_of_lt (by omega)]
      by_cases hpq : p = q
      · subst hpq
        simpa [refDiffFrom] using hnext
      · simpa [refDiffFrom, hpq, haddr] using hnext

/-- 42_diff R153. -/
theorem applyDiff_refDiff {prev next : List Byte} (h : prev.length = next.length) (hcap : prev.length ≤ 65536) :
    applyDiff prev (refDiff prev next) = next :=
  applyDiff_refDiffFrom (done := []) h (by simpa using hcap)

/-! ### The bytes of a bank as a list -/

theorem Memory.firstBytes_getElem?_of_allWritten {m : Memory 8} {n i : Nat} (h : AllWritten m n) (hi : i < n) :
    (Memory.firstBytes m n)[i]? = Memory.read m i := by
  obtain ⟨v, hv⟩ := Option.isSome_iff_exists.1 (h i hi)
  rw [Memory.firstBytes_getElem? m hi, hv, Option.getD_some]

theorem Memory.firstBytes_congr {m m' : Memory 8} {n : Nat} (h : ∀ i < n, Memory.read m i = Memory.read m' i) :
    Memory.firstBytes m n = Memory.firstBytes m' n :=
  List.map_congr_left fun i hi => by rw [h i (List.mem_range.1 hi)]

/-! ### How a DIFF ends -/

theorem exec_diff (a b : Bank) (s : State) : exec (.diff a b) s = finish (diffCmd a b s) s := rfl

/-- 60_exceptions R163: before any other check, and whatever the banks hold. -/
theorem exec_diff_of_length_mismatch {a b : Bank} {s : State} (h : s.len a ≠ s.len b) :
    exec (.diff a b) s = .next (s.failed .dimensionMismatch) := by
  have hcmd : diffCmd a b s = .ok (.error .dimensionMismatch) := if_pos h
  rw [exec_diff, hcmd, finish_of_error]

/-- 42_diff R142. -/
theorem exec_diff_of_too_long {a b : Bank} {s : State} (hlen : s.len a = s.len b) (h : (s.len a).toNat > s.params.pbufCap) :
    exec (.diff a b) s = .next (s.failed .allocationFailure) := by
  have hcmd : diffCmd a b s = .ok (.error .allocationFailure) := (if_neg (not_not.2 hlen)).trans (if_pos h)
  rw [exec_diff, hcmd, finish_of_error]

/-- A check of DIFF fails: it completes with an error. -/
theorem exec_diff_of_not_legal {a b : Bank} {s : State} (h : ¬ DiffLegal a b s) :
    ∃ e, exec (.diff a b) s = .next (s.failed e) := by
  by_cases hlen : s.len a = s.len b
  · exact ⟨_, exec_diff_of_too_long hlen (Nat.lt_of_not_le fun hcap => h ⟨hlen, hcap⟩)⟩
  · exact ⟨_, exec_diff_of_length_mismatch hlen⟩

/-- The checks pass: DIFF is its scan. -/
theorem diffCmd_of_legal {a b : Bank} {s : State} (h : DiffLegal a b s) :
    diffCmd a b s = (scan (s.pbuf a) (s.pbuf b) (s.len a).toNat).map fun es => .ok (diffWrites es) := by
  obtain ⟨hlen, hcap⟩ := h
  refine (if_neg (not_not.2 hlen)).trans ((if_neg (Nat.not_lt_of_le hcap)).trans ?_)
  cases scan (s.pbuf a) (s.pbuf b) (s.len a).toNat <;> rfl

/-- Every byte that DIFF a, b scans is written. -/
abbrev BanksWritten (a b : Bank) (s : State) : Prop :=
  AllWritten (s.pbuf a) (s.len a).toNat ∧ AllWritten (s.pbuf b) (s.len a).toNat

theorem not_banksWritten_iff {a b : Bank} {s : State} :
    ¬ BanksWritten a b s ↔
      ∃ i < (s.len a).toNat, Memory.read (s.pbuf a) i = none ∨ Memory.read (s.pbuf b) i = none := by
  simp only [not_and_or, not_allWritten_iff, ← exists_or, ← and_or_left]

/-- An address whose byte is unwritten in either bank stops the scan, whatever was found before (42_diff R159). -/
theorem scan_of_unwritten {prev next : Memory 8} {n i : Nat} (hi : i < n)
    (h : Memory.read prev i = none ∨ Memory.read next i = none) : scan prev next n = .error .uninitRead := by
  refine loop_faults hi fun es => ?_
  obtain h | h := h
  · rw [scanByte, engineRead_eq_error.2 h]
  · cases hread : Memory.read prev i with
    | none => rw [scanByte, engineRead_eq_error.2 hread]
    | some v => rw [scanByte, engineRead_eq_ok.2 hread, engineRead_eq_error.2 h]

theorem exec_diff_of_unwritten {a b : Bank} {s : State} (legal : DiffLegal a b s) (h : ¬ BanksWritten a b s) :
    exec (.diff a b) s = .fault .uninitRead := by
  obtain ⟨i, hi, hnone⟩ := not_banksWritten_iff.1 h
  exact finish_eq_fault.2 (by rw [diffCmd_of_legal legal, scan_of_unwritten hi hnone]; rfl)

/-- The entries that a successful DIFF a, b finds. -/
def State.frameDiff (s : State) (a b : Bank) : List DiffEntry :=
  refDiff (Memory.firstBytes (s.pbuf a) (s.len a).toNat) (Memory.firstBytes (s.pbuf b) (s.len a).toNat)

/-- The state after a successful DIFF a, b: the entries over DIFFMEM, and DCOUNT their number (42_diff R146). -/
def State.diffed (s : State) (a b : Bank) : State := (performWrites (diffWrites (s.frameDiff a b)) s).complete

theorem exec_diff_of_written {a b : Bank} {s : State} (legal : DiffLegal a b s) (h : BanksWritten a b s) :
    exec (.diff a b) s = .next (s.diffed a b) :=
  finish_eq_next.2 (.inl ⟨_, by rw [diffCmd_of_legal legal, scan_of_written _ _ _ h.1 h.2]; rfl, rfl⟩)

/-- Everything a DIFF can do: fail a check, meet an unwritten byte, or store RefDiff. -/
theorem exec_diff_cases (a b : Bank) (s : State) :
    (¬ DiffLegal a b s ∧ ∃ e, exec (.diff a b) s = .next (s.failed e)) ∨
    (DiffLegal a b s ∧ ¬ BanksWritten a b s ∧ exec (.diff a b) s = .fault .uninitRead) ∨
    (DiffLegal a b s ∧ BanksWritten a b s ∧ exec (.diff a b) s = .next (s.diffed a b)) := by
  by_cases legal : DiffLegal a b s
  · by_cases hbanks : BanksWritten a b s
    · exact .inr (.inr ⟨legal, hbanks, exec_diff_of_written legal hbanks⟩)
    · exact .inr (.inl ⟨legal, hbanks, exec_diff_of_unwritten legal hbanks⟩)
  · exact .inl ⟨legal, exec_diff_of_not_legal legal⟩

/-! ### The state after a successful DIFF -/

theorem DiffLegal.length_le {a b : Bank} {s : State} (legal : DiffLegal a b s) : (s.len a).toNat ≤ 65536 :=
  legal.2.trans (pbufCap_le s.params)

theorem State.frameDiff_length_le (s : State) (a b : Bank) : (s.frameDiff a b).length ≤ (s.len a).toNat :=
  (refDiffFrom_length_le 0 _ _).trans_eq (Memory.firstBytes_length _ _)

/-- DIFF changes nothing but DIFFMEM, DCOUNT, STATUS and PENDING (42_diff R151). -/
theorem State.diffed_eq (s : State) (a b : Bank) :
    s.diffed a b = { s with
      diffmem := (s.diffed a b).diffmem
      dcount := (s.diffed a b).dcount
      status := s.status.succeeded
      pending := none } := by
  rw [diffed, performWrites_diffWrites, performWrites_entryWrites]
  rfl

theorem State.diffed_dcount (s : State) (a b : Bank) :
    (s.diffed a b).dcount = BitVec.ofNat 17 (s.frameDiff a b).length := by
  rw [diffed, complete_dcount, performWrites_diffWrites, setDcount_dcount]

/-- DCOUNT has room for the number of entries, for a capacity is at most 65536 (00_scope R9). -/
theorem State.diffed_dcount_toNat {a b : Bank} {s : State} (legal : DiffLegal a b s) :
    (s.diffed a b).dcount.toNat = (s.frameDiff a b).length := by
  have hfits : (s.frameDiff a b).length < 2 ^ 17 :=
    ((s.frameDiff_length_le a b).trans legal.length_le).trans_lt (by decide)
  rw [diffed_dcount, BitVec.toNat_ofNat, Nat.mod_eq_of_lt hfits]

/-- DIFFMEM after the commit: the entries below their number, the words from before elsewhere (42_diff R146). -/
theorem State.read_diffed_diffmem (s : State) (a b : Bank) (i : Nat) :
    Memory.read (s.diffed a b).diffmem i =
      if i < (s.frameDiff a b).length then (s.frameDiff a b)[i]?.map entryWord else Memory.read s.diffmem i := by
  rw [diffed, complete_diffmem, performWrites_diffWrites, setDcount_diffmem, read_entryWrites]
  simp

/-- The FrameDiff that the host reads back is the one that was found. -/
theorem State.firstEntries_diffed {a b : Bank} {s : State} (legal : DiffLegal a b s) :
    Memory.firstEntries (s.diffed a b).diffmem (s.diffed a b).dcount.toNat = s.frameDiff a b := by
  rw [diffed_dcount_toNat legal]
  refine List.ext_getElem (by simp [Memory.firstEntries]) fun i hi hi' => ?_
  simp [Memory.firstEntries, read_diffed_diffmem, hi']

theorem State.diffed_of_no_change {a b : Bank} {s : State} (h : s.frameDiff a b = []) :
    s.diffed a b = { s with dcount := 0, status := s.status.succeeded, pending := none } := by
  rw [diffed, h]
  rfl

/-! ### The statements about DIFF -/

/-- Settles O27: on written banks the scan is RefDiff, and the commit stores its entries. -/
theorem diffStoresRefDiff : Obligations.DiffStoresRefDiff := by
  intro a b s legal ha hb
  have hdcount := State.diffed_dcount_toNat legal
  refine ⟨s.frameDiff a b, s.diffed a b, rfl, exec_diff_of_written legal ⟨ha, hb⟩, hdcount, fun i hi => ?_, fun i hi => ?_,
    s.diffed_eq a b⟩
  · rw [State.read_diffed_diffmem, if_pos hi]
  · rw [State.read_diffed_diffmem, if_neg (Nat.not_lt_of_le hi)]

/-- Settles O29: the frame of every completion, the banks no DIFF writes, and what the commit or the error leaves in DIFFMEM. -/
theorem diffFrame : Obligations.DiffFrame := by
  intro a b s t h
  have hfinish : finish (diffCmd a b s) s = .next t := exec_diff a b s ▸ h
  obtain ⟨hwidth, hheight, hirqen, hsrc, hrstN, hparams, hdraws, hinbox, houtbox⟩ := finish_next_frame hfinish
  obtain ⟨-, -, -, hhaz⟩ := finish_next_status hfinish
  obtain ⟨hpbuf0, hlen0⟩ := exec_keeps_bank (b := .bank0) h (by simp)
  obtain ⟨hpbuf1, hlen1⟩ := exec_keeps_bank (b := .bank1) h (by simp)
  refine ⟨hpbuf0, hpbuf1, hlen0, hlen1, hsrc, hwidth, hheight, hirqen, hrstN, hparams, hdraws, hinbox, houtbox, hhaz, ?_⟩
  obtain ⟨-, e, hfail⟩ | ⟨-, -, hfault⟩ | ⟨legal, -, hdone⟩ := exec_diff_cases a b s
  · obtain rfl := Host.Outcome.next.inj (hfail.symm.trans h)
    exact .inr ⟨⟨e, rfl⟩, rfl, rfl⟩
  · cases hfault.symm.trans h
  · obtain rfl := Host.Outcome.next.inj (hdone.symm.trans h)
    refine .inl ⟨by rw [State.diffed_eq], fun i hi => ?_⟩
    rw [State.diffed_dcount_toNat legal] at hi
    rw [State.read_diffed_diffmem, if_neg hi]

/-- Settles O31: the second check; and a CONVERT that changes LEN[a] is one whose checks have passed. -/
theorem diffTooLongFails : Obligations.DiffTooLongFails := by
  refine ⟨fun a b s hlen hlong => exec_diff_of_too_long hlen hlong, pbufCap_le, fun a s t h hchanged => ?_⟩
  obtain ⟨-, e, hfail⟩ | ⟨-, -, hfault⟩ | ⟨legal, -, hdone⟩ := exec_convert_cases a s
  · obtain rfl := Host.Outcome.next.inj (hfail.symm.trans h)
    exact absurd (by cases a <;> rfl) hchanged
  · cases hfault.symm.trans h
  · obtain rfl := Host.Outcome.next.inj (hdone.symm.trans h)
    rw [State.converted_len_toNat a legal]
    obtain ⟨-, -, -, hcap⟩ := legal
    exact hcap

/-- Settles O32: of the three ways a DIFF can end, the fault is the one with an unwritten byte. -/
theorem diffFaultsOnUnwrittenBank : Obligations.DiffFaultsOnUnwrittenBank := by
  intro a b s
  rw [← not_banksWritten_iff]
  obtain ⟨hillegal, e, hend⟩ | ⟨legal, hbanks, hend⟩ | ⟨legal, hbanks, hend⟩ := exec_diff_cases a b s
  · exact iff_of_false (by simp [hend]) fun ⟨legal, _⟩ => hillegal legal
  · exact iff_of_true hend ⟨legal, hbanks⟩
  · exact iff_of_false (by simp [hend]) fun ⟨_, hnot⟩ => hnot hbanks

/-- Equal contents below the length, with `prev` written: there is no change to store (42_diff R148). -/
theorem exec_diff_of_equal {a b : Bank} {s : State} (legal : DiffLegal a b s) (ha : AllWritten (s.pbuf a) (s.len a).toNat)
    (heq : ∀ i < (s.len a).toNat, Memory.read (s.pbuf b) i = Memory.read (s.pbuf a) i) :
    exec (.diff a b) s = .next { s with dcount := 0, status := s.status.succeeded, pending := none } := by
  have hb : AllWritten (s.pbuf b) (s.len a).toNat := fun i hi => by rw [heq i hi, ha i hi]
  have hsame : s.frameDiff a b = [] := by rw [State.frameDiff, Memory.firstBytes_congr heq, refDiff_self]
  rw [exec_diff_of_written legal ⟨ha, hb⟩, State.diffed_of_no_change hsame]

/-- Settles O33: RefDiff of a buffer with itself is empty. -/
theorem diffOfEqualBuffersIsEmpty : Obligations.DiffOfEqualBuffersIsEmpty :=
  ⟨rfl, rfl, fun _ _ _ legal ha heq => exec_diff_of_equal legal ha heq⟩

/-- Settles O34: below length 0 there is no byte to be unwritten or to differ. -/
theorem diffOfZeroLengthSucceeds : Obligations.DiffOfZeroLengthSucceeds := by
  refine ⟨fun a b s ha hb => ?_, fun b => by cases b <;> rfl, fun s legal => ?_⟩
  · have hnone : ∀ i, ¬ i < (s.len a).toNat := by simp [ha]
    exact exec_diff_of_equal ⟨ha.trans hb.symm, by simp [ha]⟩ (fun i hi => absurd hi (hnone i)) fun i hi => absurd hi (hnone i)
  · obtain ⟨hW, hH, -, -⟩ := legal
    exact Nat.mul_pos hW (Nat.zero_lt_of_lt (page_lt_pages hH))

/-- Settles O35: the stored entries are RefDiff, for which the round trip holds. -/
theorem diffRoundTrip : Obligations.DiffRoundTrip := by
  intro a b s legal ha hb
  refine ⟨s.diffed a b, exec_diff_of_written legal ⟨ha, hb⟩, ?_⟩
  rw [State.firstEntries_diffed legal]
  exact applyDiff_refDiff (by simp) (by simpa using legal.length_le)

/-- Settles O37: the bounds are those of RefDiff. -/
theorem diffCountIsBounded : Obligations.DiffCountIsBounded := by
  refine ⟨fun a b s legal ha hb => ?_, rfl⟩
  have hlen : (Memory.firstBytes (s.pbuf a) (s.len a).toNat).length = (Memory.firstBytes (s.pbuf b) (s.len a).toNat).length := by
    simp
  refine ⟨s.diffed a b, exec_diff_of_written legal ⟨ha, hb⟩, ?_⟩
  rw [State.diffed_dcount_toNat legal]
  refine ⟨s.frameDiff_length_le a b, legal.2, ?_, fun i hi => ?_⟩
  · have hall := refDiff_length_eq_iff hlen
    rw [Memory.firstBytes_length] at hall
    refine hall.trans (forall₂_congr fun i hi => ?_)
    rw [Memory.firstBytes_getElem?_of_allWritten ha hi, Memory.firstBytes_getElem?_of_allWritten hb hi]
  · refine ⟨entryWord (s.frameDiff a b)[i], by simp [State.read_diffed_diffmem, hi], ?_⟩
    obtain ⟨hlt, -⟩ := (mem_refDiff hlen (by simpa using legal.length_le) _).1 (List.getElem_mem hi)
    simpa using hlt

end Sys2Proof.Machine

/-! PROOFS. 60_exceptions: the illegal words, the error of DIFF on lengths that differ, and that errors are precise. -/

namespace Sys2Proof

/-! ### The illegal words (30_encoding R87) -/

/-- The checks of R87, each said of the field it is about. -/
theorem Word.wellFormed_iff (w : Word) :
    w.wellFormed = true ↔ w.rsv1 = 0 ∧ w.rsv0 = 0 ∧ w.op < 3 ∧
      (w.op = 0 → w.fieldA = false ∧ w.fieldB = false) ∧ (w.op = 1 → w.fieldB = false) := by
  simp [Word.wellFormed, Word.rsv1Clear, Word.rsv0Clear, Word.opDefined, Word.nopFieldsClear, Word.convertFieldClear,
    Word.rsv1, Word.rsv0, Word.op, Word.fieldA, Word.fieldB, and_assoc, imp_iff_not_or]

/-- A word that decodes to a command is that command's own word. -/
theorem wellFormed_of_decode {w : Word} {i : Instr} (h : decode w = .ok i) : w.wellFormed = true := by
  rw [(decode_eq_ok_iff w i).1 h]
  cases i with
  | nop => exact Laws.EncodeWellFormed.nop.1
  | convert a => exact (Laws.EncodeWellFormed.convert a).1
  | diff a b => exact (Laws.EncodeWellFormed.diff a b).1

/-- Each reason the decoder can give is a check of R87 that the word fails. -/
theorem not_wellFormed_of_decode_error {w : Word} {e : Illegal} (h : decode w = .error e) : w.wellFormed = false := by
  rw [← Bool.not_eq_true, Word.wellFormed_iff]
  rintro ⟨hrsv1, hrsv0, hop, hnop, hconvert⟩
  simp only [decode, hrsv1, hrsv0, ne_eq, not_true_eq_false, if_false] at h
  obtain hop | hop | hop : w.op = 0 ∨ w.op = 1 ∨ w.op = 2 := by bv_omega
  · simp [hop, hnop hop] at h
  · simp [hop, hconvert hop] at h
  · simp [hop] at h

theorem decode_error_iff_not_wellFormed (w : Word) : (∃ e, decode w = .error e) ↔ w.wellFormed = false := by
  refine ⟨fun ⟨e, h⟩ => not_wellFormed_of_decode_error h, fun hill => ?_⟩
  cases hdecode : decode w with
  | error e => exact ⟨e, rfl⟩
  | ok i => simp [wellFormed_of_decode hdecode] at hill

end Sys2Proof

namespace Sys2Proof.Machine

/-! ### How a pending command fails (60_exceptions R163, R164, R166) -/

/-- A word that the decoder rejects runs as ILLEGAL (40_command R107). -/
theorem runWord_of_decode_error {w : Word} {e : Illegal} (h : decode w = .error e) (s : State) :
    runWord w s = .next (s.failed .illegalCommand) := by
  rw [runWord, h]
  exact finish_of_error .illegalCommand s

/-- Settles O4: an ill-formed word is one the decoder rejects, and the engine's turn then fails before any other check. -/
theorem illegalWordsFail : Obligations.IllegalWordsFail := by
  refine ⟨decode_error_iff_not_wellFormed, fun s w hrst hpending hill => ?_, rfl⟩
  obtain ⟨e, hdecode⟩ := (decode_error_iff_not_wellFormed w).2 hill
  rw [engineTurn_of_pending hrst hpending, runWord_of_decode_error hdecode]

/-- Settles O11: of the two ways to complete, the success keeps ERRV = 0, and the error writes STATUS and PENDING only. -/
theorem failedCommandChangesOnlyStatus : Obligations.FailedCommandChangesOnlyStatus := by
  intro s t w hrst hpending herrv h hterrv
  rw [engineTurn_of_pending hrst hpending] at h
  obtain ⟨ws, -, rfl⟩ | ⟨e, rfl⟩ := runWord_eq_next h
  · simp [herrv] at hterrv
  · exact ⟨e, rfl⟩

/-- Settles O30: the lengths are compared first. -/
theorem diffLengthMismatchFails : Obligations.DiffLengthMismatchFails :=
  ⟨rfl, fun _ _ _ h => exec_diff_of_length_mismatch h⟩

end Sys2Proof.Machine

/-! PROOFS. 70_reset: what reset leaves, what holds while `rst_n` is low, runs without a fault, outputs while no command is
pending, and the busy-access hazard. -/

namespace Sys2Proof.Machine

/-! ### The state stays at its reset values while `rst_n` is low (70_reset R190, R191) -/

/-- Out of reset there is nothing to keep. -/
theorem quietInReset_of_released {s : State} (h : s.rstN = true) : QuietInReset s := by
  intro hlow
  rw [h] at hlow
  cases hlow

theorem State.enterReset_setInbox (s : State) (es : List Event) : (s.setInbox es).enterReset = s.enterReset.setInbox es := rfl

theorem State.enterReset_emit (s : State) (r : Response) : (s.emit r).enterReset = s.enterReset.emit r := rfl

theorem quietInReset_kept : KeptByEvents QuietInReset where
  setInbox s es h hlow := by rw [State.enterReset_setInbox, h hlow]
  emit s r h hlow := by rw [State.enterReset_emit, h hlow]
  enterReset _ _ _ := rfl
  release _ _ := quietInReset_of_released rfl
  access _ _ _ _ hrst heff _ :=
    have ⟨hkept, _⟩ := heff.rstN_inbox
    quietInReset_of_released (hkept.trans hrst)
  commit s ws hrst _ _ := quietInReset_of_released (by simpa using hrst)
  error _ _ hrst _ := quietInReset_of_released hrst

/-- Settles O59: while `rst_n` is low only the event list and the answers change, which reset keeps. -/
theorem stepKeepsQuietInReset : Obligations.StepKeepsQuietInReset :=
  fun _ _ => quietInReset_kept.step

/-! ### Nothing is refused (70_reset R197) -/

theorem engineTurn_ne_refused (s : State) (q : Refusal) : engineTurn s ≠ .refused q := by
  obtain ⟨hstay, -⟩ | ⟨w, r, -, -, hrun, hfinish⟩ := engineTurn_cases s
  · simp [hstay]
  · rw [hrun, hfinish]
    exact finish_ne_refused r s q

theorem step_ne_refused (s : State) (q : Refusal) : step s ≠ .refused q := by
  obtain ⟨-, heq⟩ | ⟨rest, -, heq⟩ | ⟨addr, acc, rest, -, heq⟩ | ⟨rest, -, heq⟩ | ⟨rest, -, heq⟩ := step_cases s <;> rw [heq]
  · exact engineTurn_ne_refused s q
  · exact engineTurn_ne_refused _ q
  all_goals simp

theorem runFor_ne_refused (k : Nat) (s : State) (q : Refusal) : runFor k s ≠ .refused q := by
  induction k generalizing s with
  | zero => simp [runFor]
  | succ k ih =>
    unfold runFor
    split
    · exact ih _
    · simp
    · next hstep => exact absurd hstep (step_ne_refused s _)

/-- Settles O14: of the three outcomes of k steps, the run rules out the fault, and no step refuses. -/
theorem safeRunsAnswerAState : Obligations.SafeRunsAnswerAState := by
  intro s k hsafe
  cases hrun : runFor k s with
  | next t => exact ⟨t, rfl⟩
  | fault f => exact absurd hrun (hsafe k le_rfl f)
  | refused q => exact absurd hrun (runFor_ne_refused k s q)

/-! ### Outputs while no command is pending (70_reset R202) -/

theorem engineTurn_of_no_command {s : State} (h : s.pending = none) : engineTurn s = .next s := by
  simp only [engineTurn, h]

/-- A transaction leaves a bank, or stores a byte in the bank's window. -/
theorem AccessEffect.pbuf_cases {acc : Access} {a : BitVec 19} {s t : State} (h : AccessEffect acc a s t) (b : Bank) :
    t.pbuf b = s.pbuf b ∨ ∃ d, acc = .write8 d ∧ windowOf a = .pbuf b := by
  cases h with
  | pbufStored c i d _ _ hacc hw =>
    by_cases hb : b = c
    · exact .inr ⟨d, hacc, hb ▸ hw⟩
    · exact .inl (State.setPbuf_pbuf_other s hb _)
  | lenStored c => exact .inl (State.setLen_pbuf s c b _)
  | _ => exact .inl (by cases b <;> rfl)

/-- A transaction leaves a LEN register, or stores a word in it. -/
theorem AccessEffect.len_cases {acc : Access} {a : BitVec 19} {s t : State} (h : AccessEffect acc a s t) (b : Bank) :
    t.len b = s.len b ∨ ∃ d, acc = .write32 d ∧ a = regAddress (lenReg b) := by
  cases h with
  | lenStored c d _ hacc ha =>
    by_cases hb : b = c
    · exact .inr ⟨d, hacc, hb ▸ ha⟩
    · exact .inl (State.setLen_len_other s hb _)
  | pbufStored c => exact .inl (State.setPbuf_len s c b _)
  | _ => exact .inl (by cases b <;> rfl)

/-- What a host's turn can do to the outputs of commands: nothing to those of DIFF, and to a bank and its LEN only a store. -/
theorem hostTurn_outputs (addr : Nat) (acc : Access) (s : State) :
    (hostTurn addr acc s).diffmem = s.diffmem ∧ (hostTurn addr acc s).dcount = s.dcount ∧
    ∀ b : Bank,
      ((hostTurn addr acc s).pbuf b = s.pbuf b ∨
        ∃ d a, acc = .write8 d ∧ offsetOf s.params addr = some a ∧ windowOf a = .pbuf b) ∧
      ((hostTurn addr acc s).len b = s.len b ∨
        ∃ d, acc = .write32 d ∧ offsetOf s.params addr = some (regAddress (lenReg b))) := by
  obtain ⟨heq, -⟩ | ⟨a, t, r, -, ha, heff, -, heq⟩ := hostTurn_cases addr acc s <;> rw [heq]
  · exact ⟨rfl, rfl, fun b => ⟨.inl (State.emit_pbuf s _ b), .inl (State.emit_len s _ b)⟩⟩
  · obtain ⟨-, hdcount, hdiffmem⟩ := heff.diff_outputs
    refine ⟨hdiffmem, hdcount, fun b => ⟨?_, ?_⟩⟩
    · rw [State.emit_pbuf]
      exact (heff.pbuf_cases b).imp_right fun ⟨d, hacc, hw⟩ => ⟨d, a, hacc, ha, hw⟩
    · rw [State.emit_len]
      exact (heff.len_cases b).imp_right fun ⟨d, hacc, hoff⟩ => ⟨d, hacc, hoff ▸ ha⟩

/-- Settles O16: by the event that the step serves; with no command pending the engine's turn does nothing. -/
theorem outputsHoldStillWhenIdle : Obligations.OutputsHoldStillWhenIdle := by
  intro s t h hidle hnoreset
  obtain ⟨-, heq⟩ | ⟨rest, -, heq⟩ | ⟨addr, acc, rest, hin, heq⟩ | ⟨rest, hin, -⟩ | ⟨rest, -, heq⟩ := step_cases s
  · rw [heq, engineTurn_of_no_command hidle] at h
    cases h
    simp
  · rw [heq, engineTurn_of_no_command (s := s.setInbox rest) hidle] at h
    cases h
    simp
  · rw [heq] at h
    cases h
    obtain ⟨hdiffmem, hdcount, hbanks⟩ := hostTurn_outputs addr acc (s.setInbox rest)
    refine ⟨hdiffmem, hdcount, fun b => ?_⟩
    obtain ⟨hpbuf, hlen⟩ := hbanks b
    refine ⟨fun hother => ?_, fun hother => ?_⟩
    · obtain hkept | ⟨d, a, rfl, ha, hw⟩ := hpbuf
      · rw [hkept, State.setInbox_pbuf]
      · exact absurd hw (hother addr d rest a hin ha)
    · obtain hkept | ⟨d, rfl, ha⟩ := hlen
      · rw [hkept, State.setInbox_len]
      · exact absurd ha (hother addr d rest hin)
  · exact absurd hin (hnoreset rest)
  · rw [heq] at h
    cases h
    simp

/-! ### The busy-access hazard (70_reset R200) -/

/-- An aligned offset of the REG window that is no register's reads 0 and ignores writes, busy or not (10_state R27). -/
theorem hostAccess_reserved {a : BitVec 19} (halign : a.toNat % 4 = 0) (hreg : a.toNat < 0x10000)
    (hreserved : ∀ r, a ≠ regAddress r) (d : Word) (s : State) :
    hostAccess a .read32 s = (.data32 0, s) ∧ hostAccess a (.write32 d) s = (.ack, s) := by
  have hnone : regAt (byteIndex a) = none := by
    cases hr : regAt (byteIndex a) with
    | none => rfl
    | some r =>
      have hoff := regAt_eq_some hr
      rw [byteIndex_eq_mod, Nat.mod_eq_of_lt hreg] at hoff
      exact absurd (by rw [regAddress, ← hoff, BitVec.ofNat_toNat, BitVec.setWidth_eq]) (hreserved r)
  simp [hostAccess_reg (windowOf_of_lt_reg hreg), regAccess, aligned, halign, regRead, regWrite, hnone, ignored]

section
variable {s : State} (hbusy : s.status.busy = true)
include hbusy

theorem whenIdle_busy (t : State) : whenIdle s t = (.ack, s.setHaz) := by
  simp [whenIdle, hbusy, droppedWrite]

theorem byteRead_busy (m : Memory 8) (cap i : Nat) : byteRead m cap i s = drawnByte s.setHaz := by
  simp [byteRead, hbusy]

theorem byteWrite_busy (cap i : Nat) (t : State) : byteWrite cap i s t = (.ack, s.setHaz) := by
  simp [byteWrite, hbusy, droppedWrite]

theorem entryRead_busy (i : Nat) : entryRead i s = drawnWord s.setHaz := by
  simp [entryRead, hbusy]

theorem entryWrite_busy : entryWrite s = (.ack, s.setHaz) := by
  simp [entryWrite, hbusy, droppedWrite]

/-- The registers that a command reads or that start one are not written while BUSY = 1. -/
theorem regStore_busy {r : Reg} (hr : r = .cmd ∨ r = .width ∨ r = .height ∨ r = .len0 ∨ r = .len1) (d : Word) :
    regStore r d s = (.ack, s.setHaz) := by
  obtain rfl | rfl | rfl | rfl | rfl := hr <;> exact whenIdle_busy hbusy _

theorem hostAccess_byteWindow_busy {a : BitVec 19} (hw : windowOf a = .src ∨ ∃ b, windowOf a = .pbuf b) (d : Byte) :
    hostAccess a .read8 s = drawnByte s.setHaz ∧ hostAccess a (.write8 d) s = (.ack, s.setHaz) := by
  obtain hw | ⟨b, hw⟩ := hw
  · rw [hostAccess_src hw, hostAccess_src hw]
    exact ⟨byteRead_busy hbusy _ _ _, byteWrite_busy hbusy _ _ _⟩
  · rw [hostAccess_pbuf hw, hostAccess_pbuf hw]
    exact ⟨byteRead_busy hbusy _ _ _, byteWrite_busy hbusy _ _ _⟩

theorem hostAccess_diffWindow_busy {a : BitVec 19} (hw : windowOf a = .diff) (halign : a.toNat % 4 = 0) (d : Word) :
    hostAccess a .read32 s = drawnWord s.setHaz ∧ hostAccess a (.write32 d) s = (.ack, s.setHaz) := by
  simp [hostAccess_diff hw, diffAccess, aligned, halign, entryRead_busy hbusy, entryWrite_busy hbusy]

end

/-- Settles O50: a register row is `regStore`, a memory row the window's read or write with its hazard. -/
theorem busyAccessTable : Obligations.BusyAccessTable := by
  intro s hbusy
  refine ⟨fun r => read_regAddress r s, fun a halign hreg hreserved d => hostAccess_reserved halign hreg hreserved d s,
    fun d => write_regAddress .status d s, fun d => write_regAddress .irqen d s, ?_, fun r d hr => ?_,
    fun a hlo hhi d => ?_, fun a hlo halign d => ?_, fun a acc => (hostAccess_answer a acc s).1⟩
  · rintro r d (rfl | rfl | rfl | rfl) <;> exact write_regAddress _ d s
  · exact (write_regAddress r d s).trans (regStore_busy hbusy hr d)
  · obtain ⟨hread, hwrite⟩ := hostAccess_byteWindow_busy hbusy (windowOf_eq_byteWindow hlo hhi) d
    exact ⟨⟨_, hread⟩, hwrite⟩
  · obtain ⟨hread, hwrite⟩ := hostAccess_diffWindow_busy hbusy (windowOf_eq_diff hlo) halign d
    exact ⟨⟨_, hread⟩, hwrite⟩

/-! ### What reset leaves (70_reset R191) -/

/-- A capacity register reads as its capacity: it fits 32 bits (00_scope R8, 10_state R29, R30). -/
theorem capacityWord_toNat (top : Fin 65536) : (BitVec.ofNat 32 (top.val + 1)).toNat = top.val + 1 := by
  have := top.isLt
  rw [BitVec.toNat_ofNat]
  omega

theorem Status.word_reset : Status.reset.word = 0 := by decide

/-- Settles O53: `State.reset` is itself a released reset state, and such a state differs from it in the model's own fields only. -/
theorem resetState : Obligations.ResetState := by
  intro s hs
  obtain ⟨t, rfl⟩ : ∃ t, s = (State.enterReset t).setRstN true := hs.elim (fun h => ⟨.reset, h⟩) id
  exact ⟨rfl, capacityWord_toNat t.params.srcTop, capacityWord_toNat t.params.pbufTop, rfl, Status.word_reset, rfl, rfl, rfl,
    rfl, rfl, rfl, rfl, rfl, fun _ => ⟨rfl, rfl, rfl, rfl⟩⟩

/-! ### While `rst_n` is low (70_reset R190, R192) -/

theorem step_of_resetAssert {s : State} {rest : List Event} (h : s.inbox = .resetAssert :: rest) :
    step s = .next (s.setInbox rest).enterReset := by
  simp only [step, nextEvent, h, turn]

theorem step_of_resetRelease {s : State} {rest : List Event} (h : s.inbox = .resetRelease :: rest) :
    step s = .next ((s.setInbox rest).setRstN true) := by
  simp only [step, nextEvent, h, turn]

section
variable {s : State} (hlow : s.rstN = false)
include hlow

theorem hostTurn_inReset (addr : Nat) (acc : Access) : hostTurn addr acc s = s.emit .noAnswer := by
  simp [hostTurn, hlow]

theorem engineTurn_inReset : engineTurn s = .next s := by
  cases hpending : s.pending <;> simp [engineTurn, hpending, hlow]

end

/-- Settles O54: by the event that the step serves. -/
theorem resetAbandonsEverything : Obligations.ResetAbandonsEverything := by
  refine ⟨fun s rest => step_of_resetAssert, fun s => rfl, fun s rest hlow => ⟨fun addr acc hin => ?_, fun hin => ?_,
    fun hin => ?_, step_of_resetRelease⟩⟩
  · rw [step_of_access hin, hostTurn_inReset (s := s.setInbox rest) hlow]
    rfl
  · rw [step_of_engineTurn hin, engineTurn_inReset (s := s.setInbox rest) hlow]
    rfl
  · rw [step_of_no_event hin, engineTurn_inReset hlow]

end Sys2Proof.Machine
